-- ==== Sys2Proof/Word.lean ====
section
/-! DEFINITION. The word types of QRG-ECP: bytes (codewords), 32-bit command and response words, 24-bit values.
Rules R6, R41 and R42 of the spec. -/

namespace Sys2Proof

/-- A byte, which is a codeword: 8 bits (R6). -/
abbrev Byte := BitVec 8

/-- A command word or a response word: 32 bits (R40 to R42). -/
abbrev Word := BitVec 32

/-- The value field of a response, and the argument field of a command: 24 bits (R41, R42). -/
abbrev Val := BitVec 24

end Sys2Proof
end

