-- ==== Sys2Proof/Syntax.lean ====
section
/-! DEFINITION. The 21 commands of QRG-ECP (rule R44), one constructor for each row of the opcode table, and the ten
response statuses (rule R136). -/

namespace Sys2Proof

/-- A command with its operands. Every operand is an unsigned field of the width that rule R43 gives it, so a term of
this type is always a well-formed instance of its command (R44, R45 item 3). -/
inductive Instr where
  /-- R115: nothing. -/
  | nop
  /-- R116: return to the reset state. -/
  | clr
  /-- R117: set version and level, invalidate everything. -/
  | cfg (ver : BitVec 6) (ecl : BitVec 2)
  /-- R118: return `STAT`. -/
  | rdstat
  /-- R119: return parameter `PAR[k]`. -/
  | rdpar (k : BitVec 8)
  /-- R58: return the field product. -/
  | gfmul (a b : BitVec 8)
  /-- R59: return `2^i` in the field. -/
  | gfexp (i : BitVec 8)
  /-- R60: return the logarithm of `a`. -/
  | gflog (a : BitVec 8)
  /-- R61: build the generator polynomial of degree `k`. -/
  | genp (k : BitVec 8)
  /-- R62: Reed-Solomon encode all of `DC` as one block with `k` check bytes. -/
  | rsraw (k : BitVec 8)
  /-- R63: the error-correction codewords of every block of the configured symbol. -/
  | rsblks
  /-- R79: interleave `DC` and `EC` into `CW`. -/
  | ilv
  /-- R101: write the structural patterns and the reservation record. -/
  | layout
  /-- R110: zigzag the bits of `CW` onto the unreserved cells. -/
  | place
  /-- R111: `RSBLKS`, `ILV`, `LAYOUT`, `PLACE` in one command. -/
  | run
  /-- R120: append data codeword `b` to `DC`. -/
  | pushd (b : BitVec 8)
  /-- R121: return `DC[i]`. -/
  | rddc (i : BitVec 16)
  /-- R122: return `EC[i]`. -/
  | rdec (i : BitVec 16)
  /-- R123: return `CW[i]`. -/
  | rdcw (i : BitVec 16)
  /-- R124: return `GEN[i]`. -/
  | rdgen (i : BitVec 16)
  /-- R125: return colour, tag and dark flag of cell `i`. -/
  | rdmod (i : BitVec 16)
  deriving DecidableEq, Repr

/-- The ten response statuses of rule R136; the codes `0x0A .. 0xFF` are never produced (U11). -/
inductive Status where
  | ok
  | badOp
  | badArg
  | badCfg
  | precond
  | noCfg
  | len
  | notReady
  | range
  | full
  deriving DecidableEq, Repr

end Sys2Proof
end

