-- ==== Sys2Proof/Decode.lean ====
section
/-! DEFINITION. The decoder, total on every 32-bit word (rules R41 to R46), and after it the encoder. -/

namespace Sys2Proof

/-- R45: every word is one of three things. -/
inductive Decoded where
  /-- The opcode is not one of the 21: answered `E_BADOP`. -/
  | illegal
  /-- The opcode is known and a reserved bit of its format is 1: answered `E_BADARG`. -/
  | malformed
  /-- The command and its operands. -/
  | wellFormed (i : Instr)
  deriving DecidableEq, Repr

/-- One row of the decoder: opcode, the reserved bits of the format (R43), and how the fields are taken. -/
structure DecodeRow where
  op : Byte
  reserved : Word
  build : Word → Instr

/-- R41: `op = w[31:24]`. -/
def opOf (w : Word) : Byte := w.extractLsb' 24 8

/-- R43, format FB (and the low operand of FP): `b = arg[7:0]`. -/
def fieldB (w : Word) : BitVec 8 := w.extractLsb' 0 8

/-- R43, format FP: `a = arg[15:8]`. -/
def fieldA (w : Word) : BitVec 8 := w.extractLsb' 8 8

/-- R43, format FI: `i = arg[15:0]`. -/
def fieldI (w : Word) : BitVec 16 := w.extractLsb' 0 16

/-- R43, format FC: `ver = arg[5:0]`. -/
def fieldVer (w : Word) : BitVec 6 := w.extractLsb' 0 6

/-- R43, format FC: `ecl = arg[9:8]`. -/
def fieldEcl (w : Word) : BitVec 2 := w.extractLsb' 8 2

/-- R43: reserved bits 23:0. -/
def reservedF0 : Word := 0x00FFFFFF#32

/-- R43: reserved bits 23:8. -/
def reservedFB : Word := 0x00FFFF00#32

/-- R43: reserved bits 23:16. -/
def reservedFP : Word := 0x00FF0000#32

/-- R43: reserved bits 23:16. -/
def reservedFI : Word := 0x00FF0000#32

/-- R43: reserved bits 23:10 and 7:6. -/
def reservedFC : Word := 0x00FFFCC0#32

/-- R44: opcode and format of every command. -/
def decodeRows : List DecodeRow :=
  [ ⟨0x00#8, reservedF0, fun _ => .nop⟩
  , ⟨0x01#8, reservedF0, fun _ => .clr⟩
  , ⟨0x02#8, reservedFC, fun w => .cfg (fieldVer w) (fieldEcl w)⟩
  , ⟨0x03#8, reservedF0, fun _ => .rdstat⟩
  , ⟨0x04#8, reservedFB, fun w => .rdpar (fieldB w)⟩
  , ⟨0x10#8, reservedFP, fun w => .gfmul (fieldA w) (fieldB w)⟩
  , ⟨0x11#8, reservedFB, fun w => .gfexp (fieldB w)⟩
  , ⟨0x12#8, reservedFB, fun w => .gflog (fieldB w)⟩
  , ⟨0x13#8, reservedFB, fun w => .genp (fieldB w)⟩
  , ⟨0x14#8, reservedFB, fun w => .rsraw (fieldB w)⟩
  , ⟨0x15#8, reservedF0, fun _ => .rsblks⟩
  , ⟨0x20#8, reservedF0, fun _ => .ilv⟩
  , ⟨0x30#8, reservedF0, fun _ => .layout⟩
  , ⟨0x38#8, reservedF0, fun _ => .place⟩
  , ⟨0x3F#8, reservedF0, fun _ => .run⟩
  , ⟨0x40#8, reservedFB, fun w => .pushd (fieldB w)⟩
  , ⟨0x41#8, reservedFI, fun w => .rddc (fieldI w)⟩
  , ⟨0x42#8, reservedFI, fun w => .rdec (fieldI w)⟩
  , ⟨0x43#8, reservedFI, fun w => .rdcw (fieldI w)⟩
  , ⟨0x44#8, reservedFI, fun w => .rdgen (fieldI w)⟩
  , ⟨0x45#8, reservedFI, fun w => .rdmod (fieldI w)⟩ ]

/-- R46 and section 6 of `30_encoding.md`: first the opcode, then the reserved bits, then the fields. -/
def decode (w : Word) : Decoded :=
  match decodeRows.find? (fun row => row.op == opOf w) with
  | none => .illegal
  | some row => if w &&& row.reserved = 0#32 then .wellFormed (row.build w) else .malformed

/-- R41: the word `{op, arg}`. -/
def commandWord (op : Byte) (arg : Val) : Word := op ++ arg

/-- R43, format F0: no operand. -/
def argF0 : Val := 0#24

/-- R43, format FB. -/
def argFB (b : BitVec 8) : Val := (0#16 ++ b : BitVec 24)

/-- R43, format FP. -/
def argFP (a b : BitVec 8) : Val := (0#8 ++ a ++ b : BitVec 24)

/-- R43, format FI. -/
def argFI (i : BitVec 16) : Val := (0#8 ++ i : BitVec 24)

/-- R43, format FC: `ver` in bits 5:0, `ecl` in bits 9:8. -/
def argFC (ver : BitVec 6) (ecl : BitVec 2) : Val := (0#14 ++ ecl ++ 0#2 ++ ver : BitVec 24)

/-- The word of a command, from the opcode column of R44 and the formats of R43. -/
def encode : Instr → Word
  | .nop => commandWord 0x00#8 argF0
  | .clr => commandWord 0x01#8 argF0
  | .cfg ver ecl => commandWord 0x02#8 (argFC ver ecl)
  | .rdstat => commandWord 0x03#8 argF0
  | .rdpar k => commandWord 0x04#8 (argFB k)
  | .gfmul a b => commandWord 0x10#8 (argFP a b)
  | .gfexp i => commandWord 0x11#8 (argFB i)
  | .gflog a => commandWord 0x12#8 (argFB a)
  | .genp k => commandWord 0x13#8 (argFB k)
  | .rsraw k => commandWord 0x14#8 (argFB k)
  | .rsblks => commandWord 0x15#8 argF0
  | .ilv => commandWord 0x20#8 argF0
  | .layout => commandWord 0x30#8 argF0
  | .place => commandWord 0x38#8 argF0
  | .run => commandWord 0x3F#8 argF0
  | .pushd b => commandWord 0x40#8 (argFB b)
  | .rddc i => commandWord 0x41#8 (argFI i)
  | .rdec i => commandWord 0x42#8 (argFI i)
  | .rdcw i => commandWord 0x43#8 (argFI i)
  | .rdgen i => commandWord 0x44#8 (argFI i)
  | .rdmod i => commandWord 0x45#8 (argFI i)

/-- The word whose low `nbits` bits are those of `w` and whose other bits are 0: the table's numbering is the word's own
(one 32-bit word a command, bit 0 least significant, R6 and R41). -/
def tableWord (nbits w : Nat) : Word := BitVec.ofNat 32 (w % 2 ^ nbits)

/-- The instruction this decoder reads from a table word; none where it refuses the word (R45 items 1 and 2). -/
def decodeTableWord (nbits w : Nat) : Option Instr :=
  match decode (tableWord nbits w) with
  | .wellFormed i => some i
  | _ => none

end Sys2Proof
end

