-- ==== Sys2Proof/Config.lean ====
section
/-! DEFINITION. What an implementation fixes and the free values: the eight tags (R86), the seven buffer spaces (R30), the
parameters of a block (R5) and the constants of a configured symbol (R75), and the opaque contents of elements that hold no
value (R13, U5). The parameters' default values, their check and the capacities are in `Machine/Tables.lean`. -/

namespace Sys2Proof

/-- R86: the eight kinds of cell; three bits hold exactly eight. -/
inductive Tag where
  | none
  | finder
  | separator
  | timing
  | alignment
  | versionInfo
  | formatInfo
  | darkModule
  deriving DecidableEq, Repr, Inhabited

/-- R30: the seven buffer spaces. -/
inductive Space where
  | dc
  | ec
  | cw
  | gen
  | data
  | rsvtag
  | rsvdark
  deriving DecidableEq, Repr

/-- The parameters of a block (R5, D11, D19): the two tables `EC_PER_BLOCK` and `NUM_BLOCKS` (R74), the alignment table
(R91), and `SEP_TAG`. Row `v - 1` is version `v`. `TOTAL_CW` is no parameter: it follows from the layout (R71, D19). -/
structure Params where
  /-- For each version, `(E, B)` for the levels L, M, Q, H in the order of `ECL` (R11, R74). -/
  blocks : List (List (Nat × Nat))
  /-- For each version, the centre coordinates `ALIGN_POS` (R91). -/
  align : List (List Nat)
  /-- The tag of separator cells (R89). -/
  sepTag : Tag
  deriving DecidableEq, Repr

/-- The constants of one configured symbol: version, grid side `N` (R85), `T` and `REM` (R71), `B` and `E` (R74), the
alignment centre coordinates (R91) and the tag of separator cells (R89). -/
structure Symbol where
  ver : Nat
  n : Nat
  t : Nat
  rem : Nat
  b : Nat
  e : Nat
  align : List Nat
  sepTag : Tag
  deriving DecidableEq, Repr

/-- FREE VALUE (DESIGN CHOICE, log entry 3; safe): what an element of a byte space that holds no value reads as
(R13, R26, U5). It has no body: no proof can see a value. -/
opaque Config.unspecifiedByte : Space → Nat → Byte

/-- FREE VALUE (log entry 3; safe): the same for the two one-bit spaces. -/
opaque Config.unspecifiedBit : Space → Nat → Bool

/-- FREE VALUE (log entry 3; safe): the same for `RSVTAG`. -/
opaque Config.unspecifiedTag : Nat → Tag

end Sys2Proof
end

