-- ==== Sys2Proof/Machine/State.lean ====
section
/-! DEFINITION. The state of QRG-ECP: the tuple of rule R10, then the model's own two ports. Plain data. -/

namespace Sys2Proof.Machine

/-- The contents of one buffer space (R30, R31): the elements that hold a value, as (index, value) pairs, indices strictly
rising. An index that is not listed holds no value (R13); nothing a listed element can hold equals that, so a listing is
canonical when it is strictly rising. `Buffer Byte` is a list of `Host.Cell`. -/
abbrev Buffer (α : Type) := List (Nat × α)

/-- What the host can do to the block (R150, R158). -/
inductive HostInput where
  /-- Present a 32-bit command word and wait for the response (R40). -/
  | command (w : Word)
  /-- Assert the hardware reset between commands (R150). -/
  | reset
  /-- Present a command word and assert the hardware reset while it runs: the command is abandoned (R150, U10). -/
  | resetDuring (w : Word)
  deriving DecidableEq, Repr

/-- The state: every component of rule R10, then the ports. -/
structure State where
  /-- `VER`, R11. -/
  ver : BitVec 6
  /-- `ECL`, R11. -/
  ecl : BitVec 2
  /-- `DCLEN`, R13. -/
  dclen : BitVec 12
  /-- `ECLEN`, R13. -/
  eclen : BitVec 12
  /-- `GENDEG`, R13. -/
  gendeg : BitVec 5
  /-- `CFGV`, R14. -/
  cfgv : Bool
  /-- `RAWV`, R14. -/
  rawv : Bool
  /-- `ECV`, R14. -/
  ecv : Bool
  /-- `CWV`, R14. -/
  cwv : Bool
  /-- `LAYV`, R14. -/
  layv : Bool
  /-- `PLV`, R14. -/
  plv : Bool
  /-- `FERR`, R15. -/
  ferr : BitVec 8
  /-- `GEN`, R18. -/
  gen : Buffer Byte
  /-- `DC`, R19. -/
  dc : Buffer Byte
  /-- `EC`, R20. -/
  ec : Buffer Byte
  /-- `CW`, R21. -/
  cw : Buffer Byte
  /-- `DATA`, R22; `true` is 1, dark. -/
  data : Buffer Bool
  /-- `RSVTAG`, R23. -/
  rsvtag : Buffer Tag
  /-- `RSVDARK`, R23. -/
  rsvdark : Buffer Bool
  /-- MODEL'S OWN (log entry 1): what the host will present, in order. The block holds no queue (R12): this is the host's
  side of the command port. -/
  inputs : List HostInput
  /-- MODEL'S OWN (log entry 2): the word on the response port (R40, R42); `none` when no response has been given since
  the hardware reset. -/
  resp : Option Word
  deriving DecidableEq, Repr

/-- R26, R151: every register, counter and flag 0, `FERR` 0; no buffer element listed, because their contents are
unspecified (free values, log entry 3). The two ports are empty (DESIGN CHOICE, log entries 1 and 2). -/
def State.reset : State where
  ver := 0#6
  ecl := 0#2
  dclen := 0#12
  eclen := 0#12
  gendeg := 0#5
  cfgv := false
  rawv := false
  ecv := false
  cwv := false
  layv := false
  plv := false
  ferr := 0#8
  gen := []
  dc := []
  ec := []
  cw := []
  data := []
  rsvtag := []
  rsvdark := []
  inputs := []
  resp := none

/-- Why a step stops. The block itself has no trap (R135): both reasons arise only in states that no run from reset
reaches, where the spec gives no effect; stopping there is safe (log entry 5). -/
inductive Fault where
  /-- Raised by `CFG`, `RDPAR`, `RSBLKS`, `ILV`, `LAYOUT`, `PLACE`, `RUN`, `RDCW`, `RDMOD` when they need the tables and
  the version has no row in them. R11: it is 1 to 40 whenever `CFGV = 1`. Safe. -/
  | noSuchVersion
  /-- Raised by `RSRAW`, `RDDC`, `RDEC`, `RDGEN` when a counter admits an element beyond the capacity of its space (R5,
  R10). R27 item 6: no counter does. Safe. -/
  | noSuchElement (space : Space)
  deriving DecidableEq, Repr

/-- Why a step has no meaning. -/
inductive Refusal where
  /-- Raised by an arm of `exec` whose command is not modelled yet; no arm raises it now. Safe. -/
  | notModelled (mnemonic : String)
  /-- Raised by `stepWith` for parameters that fail the check of R73 and R92 (U15: refused, not evaluated). `step` runs the
  default parameters and never raises it. Safe. -/
  | illFormedParameters
  deriving DecidableEq, Repr

end Sys2Proof.Machine
end

