-- ==== Sys2Proof/Machine/Tables.lean ====
section
/-! DEFINITION. The parameters of rule R5: the capacities (fixed, D6), the default block table of R74 and alignment table of
R91 (ROM, R24), the constants of a configured symbol under given parameters, and the check that replacement parameters must
pass (R73, R92, U15). UNVERIFIED by the spec's own source (log entry 8): the default tables are general knowledge that the
spec supplies. -/

namespace Sys2Proof.Machine

/-- R5 `VMAX`. -/
def vMax : Nat := 40

/-- R5 `EC_MAX`. -/
def ecMax : Nat := 30

/-- R5 `DC_CAP`. -/
def dcCap : Nat := 2956

/-- R5 `EC_CAP`. -/
def ecCap : Nat := 2430

/-- R5 `CW_CAP`. -/
def cwCap : Nat := 3706

/-- R5 `GRID_CAP`, `177*177`. -/
def gridCap : Nat := 31329

/-- R10: the number of elements of each space. -/
def capacity : Space → Nat
  | .dc => dcCap
  | .ec => ecCap
  | .cw => cwCap
  | .gen => ecMax + 1
  | .data => gridCap
  | .rsvtag => gridCap
  | .rsvdark => gridCap

/-- R85: the grid side of version `v`. -/
def gridSide (v : Nat) : Nat := 4 * v + 17

/-- Rows 1 to 10 of rule R74: `(E, B)` for L, M, Q, H. -/
def blockRowsA : List (List (Nat × Nat)) :=
  [ [(7, 1), (10, 1), (13, 1), (17, 1)]
  , [(10, 1), (16, 1), (22, 1), (28, 1)]
  , [(15, 1), (26, 1), (18, 2), (22, 2)]
  , [(20, 1), (18, 2), (26, 2), (16, 4)]
  , [(26, 1), (24, 2), (18, 4), (22, 4)]
  , [(18, 2), (16, 4), (24, 4), (28, 4)]
  , [(20, 2), (18, 4), (18, 6), (26, 5)]
  , [(24, 2), (22, 4), (22, 6), (26, 6)]
  , [(30, 2), (22, 5), (20, 8), (24, 8)]
  , [(18, 4), (26, 5), (24, 8), (28, 8)] ]

/-- Rows 11 to 20 of rule R74: `(E, B)` for L, M, Q, H. -/
def blockRowsB : List (List (Nat × Nat)) :=
  [ [(20, 4), (30, 5), (28, 8), (24, 11)]
  , [(24, 4), (22, 8), (26, 10), (28, 11)]
  , [(26, 4), (22, 9), (24, 12), (22, 16)]
  , [(30, 4), (24, 9), (20, 16), (24, 16)]
  , [(22, 6), (24, 10), (30, 12), (24, 18)]
  , [(24, 6), (28, 10), (24, 17), (30, 16)]
  , [(28, 6), (28, 11), (28, 16), (28, 19)]
  , [(30, 6), (26, 13), (28, 18), (28, 21)]
  , [(28, 7), (26, 14), (26, 21), (26, 25)]
  , [(28, 8), (26, 16), (30, 20), (28, 25)] ]

/-- Rows 21 to 30 of rule R74: `(E, B)` for L, M, Q, H. -/
def blockRowsC : List (List (Nat × Nat)) :=
  [ [(28, 8), (26, 17), (28, 23), (30, 25)]
  , [(28, 9), (28, 17), (30, 23), (24, 34)]
  , [(30, 9), (28, 18), (30, 25), (30, 30)]
  , [(30, 10), (28, 20), (30, 27), (30, 32)]
  , [(26, 12), (28, 21), (30, 29), (30, 35)]
  , [(28, 12), (28, 23), (28, 34), (30, 37)]
  , [(30, 12), (28, 25), (30, 34), (30, 40)]
  , [(30, 13), (28, 26), (30, 35), (30, 42)]
  , [(30, 14), (28, 28), (30, 38), (30, 45)]
  , [(30, 15), (28, 29), (30, 40), (30, 48)] ]

/-- Rows 31 to 40 of rule R74: `(E, B)` for L, M, Q, H. -/
def blockRowsD : List (List (Nat × Nat)) :=
  [ [(30, 16), (28, 31), (30, 43), (30, 51)]
  , [(30, 17), (28, 33), (30, 45), (30, 54)]
  , [(30, 18), (28, 35), (30, 48), (30, 57)]
  , [(30, 19), (28, 37), (30, 51), (30, 60)]
  , [(30, 19), (28, 38), (30, 53), (30, 63)]
  , [(30, 20), (28, 40), (30, 56), (30, 66)]
  , [(30, 21), (28, 43), (30, 59), (30, 70)]
  , [(30, 22), (28, 45), (30, 62), (30, 74)]
  , [(30, 24), (28, 47), (30, 65), (30, 77)]
  , [(30, 25), (28, 49), (30, 68), (30, 81)] ]

/-- R74, the default of `EC_PER_BLOCK` and `NUM_BLOCKS`: row `v - 1` is version `v`. -/
def blockTable : List (List (Nat × Nat)) := blockRowsA ++ blockRowsB ++ blockRowsC ++ blockRowsD

/-- Rows 1 to 20 of rule R91. -/
def alignRowsA : List (List Nat) :=
  [ []
  , [6, 18]
  , [6, 22]
  , [6, 26]
  , [6, 30]
  , [6, 34]
  , [6, 22, 38]
  , [6, 24, 42]
  , [6, 26, 46]
  , [6, 28, 50]
  , [6, 30, 54]
  , [6, 32, 58]
  , [6, 34, 62]
  , [6, 26, 46, 66]
  , [6, 26, 48, 70]
  , [6, 26, 50, 74]
  , [6, 30, 54, 78]
  , [6, 30, 56, 82]
  , [6, 30, 58, 86]
  , [6, 34, 62, 90] ]

/-- Rows 21 to 40 of rule R91. -/
def alignRowsB : List (List Nat) :=
  [ [6, 28, 50, 72, 94]
  , [6, 26, 50, 74, 98]
  , [6, 30, 54, 78, 102]
  , [6, 28, 54, 80, 106]
  , [6, 32, 58, 84, 110]
  , [6, 30, 58, 86, 114]
  , [6, 34, 62, 90, 118]
  , [6, 26, 50, 74, 98, 122]
  , [6, 30, 54, 78, 102, 126]
  , [6, 26, 52, 78, 104, 130]
  , [6, 30, 56, 82, 108, 134]
  , [6, 34, 60, 86, 112, 138]
  , [6, 30, 58, 86, 114, 142]
  , [6, 34, 62, 90, 118, 146]
  , [6, 30, 54, 78, 102, 126, 150]
  , [6, 24, 50, 76, 102, 128, 154]
  , [6, 28, 54, 80, 106, 132, 158]
  , [6, 32, 58, 84, 110, 136, 162]
  , [6, 26, 54, 82, 110, 138, 166]
  , [6, 30, 58, 86, 114, 142, 170] ]

/-- R91, the default of `ALIGN_POS`: row `v - 1` is version `v`. -/
def alignTable : List (List Nat) := alignRowsA ++ alignRowsB

/-- R5: the default parameters; `SEP_TAG` is `Separator` (D11; log entries 8 and 9). -/
def defaultParams : Params := { blocks := blockTable, align := alignTable, sepTag := .separator }

/-- R102: the timing cells of version `v` with `len` centre coordinates that keep their tag: `2*(N-16)` less 5 for each
alignment pattern centred on row 6 or column 6. -/
def timingCount (v len : Nat) : Nat := 2 * (gridSide v - 16) - 5 * (2 * (len - 2))

/-- R91, R102: 25 cells for each of the `len*len - 3` placed patterns; none when there is no coordinate. -/
def alignmentCount (len : Nat) : Nat := 25 * (len * len - 3)

/-- R102: 36 version-information cells from version 7. -/
def versionInfoCount (v : Nat) : Nat := if 7 ≤ v then 36 else 0

/-- R102: `U(v)`, the cells that no pattern takes: all but 147 finder, 45 separator, 30 format and 1 dark-module cells, and the
timing, alignment and version cells. -/
def unreservedTotal (v len : Nat) : Nat :=
  gridSide v * gridSide v - (147 + 45 + 30 + 1) - timingCount v len - alignmentCount len - versionInfoCount v

/-- The symbol that the table rows of version `v` give level `l` (0, 1, 2, 3 for L, M, Q, H, R11): R74, R85, R91, and
`T = floor(U/8)`, `REM = U mod 8` (R71). -/
def symbolFromRow (v l : Nat) (sepTag : Tag) (row : List (Nat × Nat)) (align : List Nat) : Option Symbol :=
  match row[l]? with
  | none => none
  | some (e, b) =>
    some
      { ver := v, n := gridSide v, t := unreservedTotal v align.length / 8, rem := unreservedTotal v align.length % 8
        b := b, e := e, align := align, sepTag := sepTag }

/-- The symbol of `(ver, ecl)` under given parameters; none when the version has no row of the tables. -/
def symbolWith (params : Params) (ver : BitVec 6) (ecl : BitVec 2) : Option Symbol :=
  if ver.toNat = 0 then none
  else
    match params.blocks[ver.toNat - 1]?, params.align[ver.toNat - 1]? with
    | some row, some align => symbolFromRow ver.toNat ecl.toNat params.sepTag row align
    | _, _ => none

/-- The symbol of `(ver, ecl)` under the default parameters. -/
abbrev symbolOf (ver : BitVec 6) (ecl : BitVec 2) : Option Symbol := symbolWith defaultParams ver ecl

/-! ## The check of replacement tables (R5, U15) -/

/-- R73, items 1 to 5, of one `(E, B)` with `T` codewords; item 6 follows from item 1. -/
def entryWellFormed (t : Nat) (entry : Nat × Nat) : Bool :=
  let e := entry.1
  let b := entry.2
  decide (1 ≤ b) && decide (7 ≤ e) && decide (e ≤ ecMax) && decide (9 ≤ t / b - e)
    && decide (t / b - e + (if t % b = 0 then 0 else 1) + e ≤ 153)
    && decide (1 ≤ t - b * e) && decide (t - b * e ≤ dcCap) && decide (b * e ≤ ecCap) && decide (t ≤ cwCap)

/-- R92: consecutive coordinates differ by at least 12. -/
def spacedTwelve : List Nat → Bool
  | [] => true
  | [_] => true
  | a :: b :: rest => decide (a + 12 ≤ b) && spacedTwelve (b :: rest)

/-- R92: version 1 has no coordinate; every other list starts with 6, ends with `N - 7`, is spaced, and all are even. That the
patterns then lie on `None` or `Timing` cells only is stated as an obligation. -/
def alignWellFormed (v : Nat) (align : List Nat) : Bool :=
  if v = 1 then align.isEmpty
  else
    decide (align.head? = some 6) && decide (align.getLast? = some (gridSide v - 7)) && spacedTwelve align
      && align.all fun a => decide (a % 2 = 0)

/-- R73 and R92 for version `v`. -/
def versionWellFormed (params : Params) (v : Nat) : Bool :=
  match params.blocks[v - 1]?, params.align[v - 1]? with
  | some row, some align =>
    decide (row.length = 4) && alignWellFormed v align
      && row.all (entryWellFormed (unreservedTotal v align.length / 8))
  | _, _ => false

/-- R5, U15: the side condition on parameters: 40 rows in each table, each well-formed by R73 and R92, and `SEP_TAG` one of the
two admissible tags (D11). -/
def paramsWellFormed (params : Params) : Bool :=
  decide (params.blocks.length = vMax) && decide (params.align.length = vMax)
    && (decide (params.sepTag = .separator) || decide (params.sepTag = .finder))
    && (List.range vMax).all fun i => versionWellFormed params (i + 1)

end Sys2Proof.Machine
end

