-- ==== Sys2Proof/Machine/Ops.lean ====
section
/-! DEFINITION. The named operations: one buffer element and runs of elements (R30 to R32), answering a command (R42), failing a
command (R137; the block's whole "exception entry", R141), `require` (R6), the guards for states that no run reaches, and
the two resets (R150). There is no return operation: a failure leaves nothing to return from (R142). -/

namespace Sys2Proof.Machine

/-- What a command answers. -/
abbrev Result := Host.Outcome State Fault Refusal

/-! ## Buffers -/

/-- The value that element `i` holds, if it holds one (R13). -/
def bufGet {α : Type} : Buffer α → Nat → Option α
  | [], _ => none
  | (j, v) :: rest, i => if j = i then some v else bufGet rest i

/-- `S[i] <- v`: one element (R32), keeping the indices strictly rising. -/
def bufSet {α : Type} : Buffer α → Nat → α → Buffer α
  | [], i, v => [(i, v)]
  | (j, w) :: rest, i, v =>
    if j < i then (j, w) :: bufSet rest i v
    else if j = i then (i, v) :: rest
    else (i, v) :: (j, w) :: rest

/-- The values of a list at consecutive indices from `base`. -/
def numbered {α : Type} : Nat → List α → Buffer α
  | _, [] => []
  | base, v :: vs => (base, v) :: numbered (base + 1) vs

/-- `S[base .. base + n - 1] <- vs`: a run of elements; every other element stays as it is. -/
def bufWrite {α : Type} (b : Buffer α) (base : Nat) (vs : List α) : Buffer α :=
  b.filter (fun x => decide (x.1 < base)) ++ numbered base vs
    ++ b.filter (fun x => decide (base + vs.length ≤ x.1))

/-- The canonical form of one buffer: indices strictly rising. -/
abbrev bufCanonical {α : Type} (b : Buffer α) : Prop := b.Pairwise (fun x y => x.1 < y.1)

/-- Every listed index exists in a space of `cap` elements (R5, R10). -/
abbrev bufWithin {α : Type} (cap : Nat) (b : Buffer α) : Prop := ∀ x ∈ b, x.1 < cap

/-- Element `i` of a byte space; an element that holds no value reads as a free value (U5, log entry 3). -/
def readByte (sp : Space) (b : Buffer Byte) (i : Nat) : Byte :=
  (bufGet b i).getD (Config.unspecifiedByte sp i)

/-- Element `i` of a one-bit space. -/
def readBit (sp : Space) (b : Buffer Bool) (i : Nat) : Bool :=
  (bufGet b i).getD (Config.unspecifiedBit sp i)

/-- Element `i` of `RSVTAG`. -/
def readTag (b : Buffer Tag) (i : Nat) : Tag :=
  (bufGet b i).getD (Config.unspecifiedTag i)

/-- `S[base .. base + n - 1]` as a list, first element first (R33 item 2). -/
def readRun (sp : Space) (b : Buffer Byte) (base n : Nat) : List Byte :=
  (List.range n).map fun i => readByte sp b (base + i)

/-- The canonical form of all seven spaces: every buffer strictly rising and within its capacity. -/
abbrev Memory.wf (s : State) : Prop :=
  (bufCanonical s.dc ∧ bufWithin (capacity .dc) s.dc) ∧
  (bufCanonical s.ec ∧ bufWithin (capacity .ec) s.ec) ∧
  (bufCanonical s.cw ∧ bufWithin (capacity .cw) s.cw) ∧
  (bufCanonical s.gen ∧ bufWithin (capacity .gen) s.gen) ∧
  (bufCanonical s.data ∧ bufWithin (capacity .data) s.data) ∧
  (bufCanonical s.rsvtag ∧ bufWithin (capacity .rsvtag) s.rsvtag) ∧
  (bufCanonical s.rsvdark ∧ bufWithin (capacity .rsvdark) s.rsvdark)

/-! ## Answering a command -/

/-- R136: the code of a status. -/
def statusCode : Status → BitVec 8
  | .ok => 0x00#8
  | .badOp => 0x01#8
  | .badArg => 0x02#8
  | .badCfg => 0x03#8
  | .precond => 0x04#8
  | .noCfg => 0x05#8
  | .len => 0x06#8
  | .notReady => 0x07#8
  | .range => 0x08#8
  | .full => 0x09#8

/-- R42: the response word, `st` in bits 31:24 and `val` in bits 23:0. -/
def responseWord (st : Status) (v : Val) : Word := statusCode st ++ v

/-- The response word is put on the response port. -/
def withResp (w : Word) (s : State) : State := { s with resp := some w }

/-- R15, R137: `FERR` takes the code when it is 0, and keeps its value otherwise. -/
def recordError (code : Status) (s : State) : State :=
  { s with ferr := if s.ferr = 0#8 then statusCode code else s.ferr }

/-- R6 `respond(v)`: the command completes with status `OK` and value `v`. -/
def respond (v : Val) (s : State) : Result := .next (withResp (responseWord .ok v) s)

/-- The state after a failing command (R137): only `FERR` may change; `val` is 0 (R42). -/
def failState (code : Status) (s : State) : State :=
  withResp (responseWord code 0#24) (recordError code s)

/-- R6 `raise Err(code)`, R141: the command fails. -/
def failWith (code : Status) (s : State) : Result := .next (failState code s)

/-- R6 `require cond else code`. -/
def require (cond : Prop) [Decidable cond] (code : Status) (s : State) (rest : Result) : Result :=
  if cond then rest else failWith code s

/-- A natural as a 24-bit response value; R3 of the decisions (D3): every value fits. -/
def val24 (n : Nat) : Val := BitVec.ofNat 24 n

/-! ## Guards for states that no run reaches (log entry 5) -/

/-- The constants of `(ver, ecl)` under given parameters, or the fault for a version without a table row. -/
def withSymbol (params : Params) (ver : BitVec 6) (ecl : BitVec 2) (rest : Symbol → Result) : Result :=
  match symbolWith params ver ecl with
  | some p => rest p
  | none => .fault .noSuchVersion

/-- Element `i` must exist in its space. -/
def withElement (sp : Space) (i : Nat) (rest : Result) : Result :=
  if i < capacity sp then rest else .fault (.noSuchElement sp)

/-! ## Reset -/

/-- R26, R116, R150: the reset state of everything in rule R10; what the host still has to present stays. -/
def clearState (s : State) : State := { State.reset with inputs := s.inputs }

end Sys2Proof.Machine
end

