-- ==== Sys2Proof/Machine/Operands.lean ====
section
/-! DEFINITION. The operand forms (R43): every operand is an unsigned field taken as it stands (F0 none, FB a byte or a
selector or a degree, FP two bytes, FI an element index, FC a version and a level), and every data element is returned
zero-extended to 24 bits. -/

namespace Sys2Proof.Machine

/-- R6 `zext_24` of a byte. -/
def zextByte (b : Byte) : Val := b.setWidth 24

/-- Format FB as a degree, an exponent or a selector: the unsigned number. -/
def selectorOf (k : BitVec 8) : Nat := k.toNat

/-- Format FI: the unsigned element index, the block's one addressing mode (`44_system_and_ports.md` section 2). -/
def indexOf (i : BitVec 16) : Nat := i.toNat

/-- Format FC: the version. -/
def versionOf (ver : BitVec 6) : Nat := ver.toNat

/-- R85, R31: the linear index of cell `(r, c)`. -/
def cellIndex (n r c : Nat) : Nat := r * n + c

/-- R86: the number of a tag. -/
def tagCode : Tag → BitVec 3
  | .none => 0#3
  | .finder => 1#3
  | .separator => 2#3
  | .timing => 3#3
  | .alignment => 4#3
  | .versionInfo => 5#3
  | .formatInfo => 6#3
  | .darkModule => 7#3

/-- R125: `{0 (19 bits), RSVTAG[i] (3 bits), RSVDARK[i], DATA[i]}`. -/
def cellVal (tag : Tag) (dark colour : Bool) : Val :=
  (0#19 ++ tagCode tag ++ BitVec.ofBool dark ++ BitVec.ofBool colour : BitVec 24)

end Sys2Proof.Machine
end

