-- ==== Sys2Proof/Machine/Flags.lean ====
section
/-! DEFINITION. The six validity flags (R14): what each command that succeeds does to them (the rows of R126), and the `STAT`
view (R16). -/

namespace Sys2Proof.Machine

/-- `CFG`: `CFGV` set, the other five cleared (R117). -/
def flagsAfterCfg (s : State) : State :=
  { s with cfgv := true, rawv := false, ecv := false, cwv := false, layv := false, plv := false }

/-- `PUSHD`: everything that depends on the data is cleared; `LAYV` is kept (R120). -/
def flagsAfterPush (s : State) : State :=
  { s with rawv := false, ecv := false, cwv := false, plv := false }

/-- `RSRAW` (R62). -/
def flagsAfterRaw (s : State) : State :=
  { s with rawv := true, ecv := false, cwv := false, plv := false }

/-- `RSBLKS` (R63). -/
def flagsAfterBlocks (s : State) : State :=
  { s with rawv := false, ecv := true, cwv := false, plv := false }

/-- `ILV` (R79). -/
def flagsAfterIlv (s : State) : State := { s with cwv := true, plv := false }

/-- `LAYOUT` (R101). -/
def flagsAfterLayout (s : State) : State := { s with layv := true, plv := false }

/-- `PLACE` (R110). -/
def flagsAfterPlace (s : State) : State := { s with plv := true }

/-- R16, R118: `{0x00, FERR, 0b00, PLV, LAYV, CWV, ECV, RAWV, CFGV}`. -/
def statVal (s : State) : Val :=
  (0x00#8 ++ s.ferr ++ 0b00#2 ++ BitVec.ofBool s.plv ++ BitVec.ofBool s.layv ++ BitVec.ofBool s.cwv
    ++ BitVec.ofBool s.ecv ++ BitVec.ofBool s.rawv ++ BitVec.ofBool s.cfgv : BitVec 24)

end Sys2Proof.Machine
end

