-- ==== Sys2Proof/Machine/Galois.lean ====
section
/-! DEFINITION. GF(256) and the Reed-Solomon encoder: rules R50 to R57. Lists of coefficients have the highest power first
(R18, R33 item 2). -/

namespace Sys2Proof.Machine

/-- R50: the reduction polynomial, bit `i` the coefficient of `x^i`. -/
def gfPoly : BitVec 15 := 0x11D#15

/-- R51, first loop: the product over GF(2), not reduced. -/
def gfProduct (a b : Byte) : BitVec 15 :=
  (List.range 8).foldl (fun r i => if b.getLsbD i then r ^^^ (a.setWidth 15 <<< i) else r) 0#15

/-- R51, second loop: reduction modulo `0x11D`, from bit 14 down to bit 8. -/
def gfReduce (r : BitVec 15) : BitVec 15 :=
  [14, 13, 12, 11, 10, 9, 8].foldl (fun r i => if r.getLsbD i then r ^^^ (gfPoly <<< (i - 8)) else r) r

/-- R51: `gf_mul(a, b)`. -/
def gfMul (a b : Byte) : Byte := (gfReduce (gfProduct a b)).setWidth 8

/-- R52: `gf_exp(i)`, that is `2^i`; the command uses it for `i <= 254` only. -/
def gfExp : Nat → Byte
  | 0 => 0x01#8
  | i + 1 => gfMul (gfExp i) 0x02#8

/-- The first of the next `fuel` powers, starting with `x = 2^i`, that is `a`. -/
def gfLogFrom (a : Byte) : Nat → Nat → Byte → Option Nat
  | 0, _, _ => none
  | fuel + 1, i, x => if x = a then some i else gfLogFrom a fuel (i + 1) (gfMul x 0x02#8)

/-- R53: `gf_log(a)`, the `i` in `0 .. 254` with `gf_exp(i) = a`; 0 has none (U3). -/
def gfLog (a : Byte) : Option Nat := gfLogFrom a 255 0 0x01#8

/-- Element by element exclusive-or of the second list into the first; the rest of the first stays. -/
def xorInto : List Byte → List Byte → List Byte
  | [], _ => []
  | x :: xs, [] => x :: xs
  | x :: xs, y :: ys => (x ^^^ y) :: xorInto xs ys

/-- R55, one turn of the loop: `g` times `(x - a)`: `h[j] ^= g[j]` and `h[j+1] ^= gf_mul(g[j], a)`. -/
def polyTimesRoot (g : List Byte) (a : Byte) : List Byte :=
  xorInto (g ++ [0#8]) (0#8 :: g.map (gfMul · a))

/-- R55: `gen_poly(k)`. -/
def genPoly (k : Nat) : List Byte :=
  (List.range k).foldl (fun g i => polyTimesRoot g (gfExp i)) [0x01#8]

/-- R56, one turn of the loop: if the leading byte `c` is not 0, exclusive-or `c` times the generator into the buffer;
then go on to the next index, leaving the leading byte (which is not returned) behind. -/
def divStep (g : List Byte) : List Byte → List Byte
  | [] => []
  | c :: rest => (if c = 0#8 then c :: rest else xorInto (c :: rest) (g.map (gfMul · c))).tail

/-- `n` turns of the division loop. -/
def divSteps (g : List Byte) : Nat → List Byte → List Byte
  | 0, buf => buf
  | n + 1, buf => divSteps g n (divStep g buf)

/-- R56: `rs_encode(data, k)`: `buf <- data ++ (k zero bytes)`, `n = length(data)` turns, then the trailing `k` bytes. -/
def rsEncode (data : List Byte) (k : Nat) : List Byte :=
  divSteps (genPoly k) data.length (data ++ List.replicate k 0#8)

end Sys2Proof.Machine
end

