-- ==== Sys2Proof/Machine/Partition.lean ====
section
/-! DEFINITION. The block partition and the interleaver: rules R75 to R78. -/

namespace Sys2Proof.Machine

/-- R75: `D = T - B*E`. -/
def dataCount (p : Symbol) : Nat := p.t - p.b * p.e

/-- R75: `G2 = T mod B`. -/
def groupTwo (p : Symbol) : Nat := p.t % p.b

/-- R75: `G1 = B - G2`. -/
def groupOne (p : Symbol) : Nat := p.b - groupTwo p

/-- R75: `SHORT = floor(T/B) - E`. -/
def shortLen (p : Symbol) : Nat := p.t / p.b - p.e

/-- R75: `MAXLEN`. -/
def maxLen (p : Symbol) : Nat := if 0 < groupTwo p then shortLen p + 1 else shortLen p

/-- R71, R102: `U(V) = 8*T(V) + REM(V)`. -/
def unreservedCount (p : Symbol) : Nat := 8 * p.t + p.rem

/-- R76: `len(j)`. -/
def blockLen (p : Symbol) (j : Nat) : Nat :=
  if j < groupOne p then shortLen p else shortLen p + 1

/-- R76: `off(j) = j*SHORT + max(0, j - G1)`. -/
def blockOff (p : Symbol) (j : Nat) : Nat := j * shortLen p + (j - groupOne p)

/-- R77: the error-correction codewords of every block, block after block, so that block `j`'s lie at `j*E .. j*E+E-1`.
`dc` reads one data codeword. -/
def blocksEc (p : Symbol) (dc : Nat → Byte) : List Byte :=
  (List.range p.b).flatMap fun j =>
    rsEncode ((List.range (blockLen p j)).map fun i => dc (blockOff p j + i)) p.e

/-- R78: the data codewords column by column across the blocks, then the error-correction codewords likewise. -/
def interleave (p : Symbol) (dc ec : Nat → Byte) : List Byte :=
  ((List.range (maxLen p)).flatMap fun i =>
    ((List.range p.b).filter fun j => decide (i < blockLen p j)).map fun j => dc (blockOff p j + i)) ++
  ((List.range p.e).flatMap fun i => (List.range p.b).map fun j => ec (j * p.e + i))

end Sys2Proof.Machine
end

