-- ==== Sys2Proof/Machine/Patterns.lean ====
section
/-! DEFINITION. The symbol structure: rules R85 to R103. Each stage says which cells it writes and with what; a cell takes what
the LAST stage that writes it gives (R87), and a cell that no stage writes is `None`, 0 (R100). This is the closed form of
rule R103; `Safety.lean` holds the sequence of writes, and an obligation states that they agree. -/

namespace Sys2Proof.Machine

/-- What `put(r, c, tag, d)` writes to a cell (R85): the tag, and `d` as colour and dark flag. -/
structure Mark where
  tag : Tag
  dark : Bool
  deriving DecidableEq, Repr

/-- The distance of two coordinates. -/
def coordDist (a b : Nat) : Nat := (a - b) + (b - a)

/-- R88: the colour at offset `(r, c)` inside a finder. -/
def finderColour (r c : Nat) : Bool :=
  decide (r = 0 ∨ r = 6 ∨ c = 0 ∨ c = 6) || decide (2 ≤ r ∧ r ≤ 4 ∧ 2 ≤ c ∧ c ≤ 4)

/-- R88: the three finders, origins `(0, 0)`, `(0, N-7)`, `(N-7, 0)`. -/
def finderCell (n r c : Nat) : Option Mark :=
  if r ≤ 6 ∧ c ≤ 6 then some ⟨.finder, finderColour r c⟩
  else if r ≤ 6 ∧ n - 7 ≤ c then some ⟨.finder, finderColour r (c - (n - 7))⟩
  else if n - 7 ≤ r ∧ c ≤ 6 then some ⟨.finder, finderColour (r - (n - 7)) c⟩
  else none

/-- R89: the separators, all light, with the tag `SEP_TAG`. -/
def separatorCell (sepTag : Tag) (n r c : Nat) : Option Mark :=
  if (r = 7 ∧ (c ≤ 7 ∨ n - 8 ≤ c)) ∨ (c = 7 ∧ (r ≤ 7 ∨ n - 8 ≤ r)) ∨ (r = n - 8 ∧ c ≤ 7) ∨ (c = n - 8 ∧ r ≤ 7) then
    some ⟨sepTag, false⟩
  else none

/-- R90: the timing lines on row 6 and column 6, offsets 8 to `N-9`, dark at even offsets. -/
def timingCell (n r c : Nat) : Option Mark :=
  if r = 6 ∧ 8 ≤ c ∧ c ≤ n - 9 then some ⟨.timing, decide (c % 2 = 0)⟩
  else if c = 6 ∧ 8 ≤ r ∧ r ≤ n - 9 then some ⟨.timing, decide (r % 2 = 0)⟩
  else none

/-- R93: the three centres that fall on finders are skipped; `first` and `last` are the ends of the coordinate list. -/
def skippedCentre (pos : List Nat) (a b : Nat) : Bool :=
  let first := pos.headD 0
  let last := pos.getLastD 0
  decide ((a = first ∧ b = first) ∨ (a = first ∧ b = last) ∨ (a = last ∧ b = first))

/-- R93: the 5x5 patterns around the centres `(a, b)`, light exactly at distance 1. -/
def alignmentCell (pos : List Nat) (r c : Nat) : Option Mark :=
  (pos.filter fun a => decide (coordDist r a ≤ 2)).findSome? fun a =>
    (pos.filter fun b => decide (coordDist c b ≤ 2)).findSome? fun b =>
      if skippedCentre pos a b then none
      else some ⟨.alignment, decide (max (coordDist r a) (coordDist c b) ≠ 1)⟩

/-- R94: the version-information generator `VI_POLY`. -/
def viPoly : BitVec 18 := 0x1F25#18

/-- R94: the remainder of `v * x^12` by `VI_POLY`, in the low 12 bits. -/
def versionRemainder (v : Nat) : BitVec 18 :=
  [17, 16, 15, 14, 13, 12].foldl (fun r i => if r.getLsbD i then r ^^^ (viPoly <<< (i - 12)) else r)
    (BitVec.ofNat 18 v <<< 12)

/-- R94: `(v << 12) | r[11:0]`. -/
def versionWord (v : Nat) : BitVec 18 :=
  (BitVec.ofNat 18 v <<< 12) ||| ((versionRemainder v).setWidth 12).setWidth 18

/-- R95: bit `i` of the version word at `(i/3, N-11 + i mod 3)` and at its transpose, from version 7. -/
def versionCell (v n r c : Nat) : Option Mark :=
  if 7 ≤ v ∧ r ≤ 5 ∧ n - 11 ≤ c ∧ c ≤ n - 9 then
    some ⟨.versionInfo, (versionWord v).getLsbD (3 * r + (c - (n - 11)))⟩
  else if 7 ≤ v ∧ c ≤ 5 ∧ n - 11 ≤ r ∧ r ≤ n - 9 then
    some ⟨.versionInfo, (versionWord v).getLsbD (3 * c + (r - (n - 11)))⟩
  else none

/-- R98: the format-information placeholder, 30 light cells. -/
def formatCell (n r c : Nat) : Option Mark :=
  if r = 8 ∧ (c ≤ 5 ∨ c = 7 ∨ c = 8 ∨ n - 8 ≤ c) then some ⟨.formatInfo, false⟩
  else if c = 8 ∧ (r ≤ 5 ∨ r = 7 ∨ n - 7 ≤ r) then some ⟨.formatInfo, false⟩
  else none

/-- R99: the dark module at `(N-8, 8)`. -/
def darkModuleCell (n r c : Nat) : Option Mark :=
  if r = n - 8 ∧ c = 8 then some ⟨.darkModule, true⟩ else none

/-- R100: what a cell that no stage writes holds. -/
def unreservedMark : Mark := ⟨.none, false⟩

/-- R87, R103: the stages are finder, separator, timing, alignment, version information, format placeholder, dark module, and
the last that writes a cell decides. -/
def layoutCell (p : Symbol) (r c : Nat) : Mark :=
  ((darkModuleCell p.n r c).or <| (formatCell p.n r c).or <| (versionCell p.ver p.n r c).or <|
    (alignmentCell p.align r c).or <| (timingCell p.n r c).or <| (separatorCell p.sepTag p.n r c).or <|
    finderCell p.n r c).getD unreservedMark

/-- All cells `0 .. N*N-1` in index order (R31: cell `(r, c)` is index `r*N + c`). -/
def layoutMarks (p : Symbol) : List Mark :=
  (List.range (p.n * p.n)).map fun i => layoutCell p (i / p.n) (i % p.n)

end Sys2Proof.Machine
end

