-- ==== Sys2Proof/Machine/Walk.lean ====
section
/-! DEFINITION. The zigzag walk and the bit stream: rules R105 to R109. -/

namespace Sys2Proof.Machine

/-- R105, R109: bit `k` of the stream, most significant bit of each codeword first; 0 after the last codeword. `cw` reads
one codeword. -/
def streamBit (t : Nat) (cw : Nat → Byte) (k : Nat) : Bool :=
  if k < 8 * t then (cw (k / 8)).getLsbD (7 - k % 8) else false

/-- R106: one column pair: at each row the right-hand cell, then the left-hand one. -/
def columnPair (n col : Nat) (up : Bool) : List (Nat × Nat) :=
  (if up then (List.range n).reverse else List.range n).flatMap fun r => [(r, col), (r, col - 1)]

/-- R106: the next column pair: two to the left, 5 in place of 6. -/
def nextColumn (col : Nat) : Nat := if col - 2 = 6 then 5 else col - 2

/-- R106: the loop over the column pairs; `fuel` bounds it (`col` falls at each turn). -/
def visitFrom (n : Nat) : Nat → Nat → Bool → List (Nat × Nat)
  | 0, _, _ => []
  | fuel + 1, col, up =>
    if col < 1 then [] else columnPair n col up ++ visitFrom n fuel (nextColumn col) (!up)

/-- R106: `visit_order(N)`. -/
def visitOrder (n : Nat) : List (Nat × Nat) := visitFrom n n (n - 1) true

/-- R108: the unreserved cells, as linear indices, in visit order; the `k`-th receives `bit(k)`. -/
def placementCells (n : Nat) (tagAt : Nat → Tag) : List Nat :=
  ((visitOrder n).map fun rc => cellIndex n rc.1 rc.2).filter fun i => decide (tagAt i = .none)

/-- R110: write the next bits of the stream to the cells of a list, the first of them bit `k`. -/
def placeBits (bit : Nat → Bool) : List Nat → Nat → Buffer Bool → Buffer Bool
  | [], _, data => data
  | i :: rest, k, data => placeBits bit rest (k + 1) (bufSet data i (bit k))

end Sys2Proof.Machine
end

