-- ==== Sys2Proof/Machine/System.lean ====
section
/-! DEFINITION. The system commands: rules R115 to R119. -/

namespace Sys2Proof.Machine

/-- R115 `NOP`. -/
def execNop (s : State) : Result := respond 0#24 s

/-- R116 `CLR`: the reset state, `FERR` included. -/
def execClr (s : State) : Result := respond 0#24 (clearState s)

/-- R117: the registers and counters that `CFG` writes; `GEN`, `GENDEG` and `FERR` stay. -/
def configure (ver : BitVec 6) (ecl : BitVec 2) (s : State) : State :=
  flagsAfterCfg { s with ver := ver, ecl := ecl, dclen := 0#12, eclen := 0#12 }

/-- R117 `CFG ver, lvl`: answers `D`. -/
def execCfgWith (params : Params) (ver : BitVec 6) (ecl : BitVec 2) (s : State) : Result :=
  require (1 ≤ versionOf ver ∧ versionOf ver ≤ vMax) .badCfg s <|
  withSymbol params ver ecl fun p => respond (val24 (dataCount p)) (configure ver ecl s)

/-- R117 `CFG ver, lvl` under the default parameters. -/
def execCfg (ver : BitVec 6) (ecl : BitVec 2) (s : State) : Result := execCfgWith defaultParams ver ecl s

/-- R118 `RDSTAT`. -/
def execRdstat (s : State) : Result := respond (statVal s) s

/-- R17: `PAR[0 .. 9]`, which come from the configured symbol. -/
def symbolParam (p : Symbol) : Nat → Nat
  | 0 => p.n
  | 1 => p.t
  | 2 => dataCount p
  | 3 => p.b
  | 4 => p.e
  | 5 => groupOne p
  | 6 => groupTwo p
  | 7 => shortLen p
  | 8 => unreservedCount p - 8 * p.t
  | _ => p.n * p.n

/-- R17: `PAR[10 .. 15]`, which need no configuration. -/
def stateParam (s : State) : Nat → Nat
  | 10 => s.dclen.toNat
  | 11 => s.eclen.toNat
  | 12 => s.gendeg.toNat
  | 13 => if s.cfgv then s.ver.toNat else 0
  | 14 => if s.cfgv then s.ecl.toNat else 0
  | _ => ecMax

/-- R119 `RDPAR k`: `E_RANGE` is tested before `E_NOCFG` (R138). -/
def execRdparWith (params : Params) (k : BitVec 8) (s : State) : Result :=
  require (selectorOf k ≤ 15) .range s <|
  require (10 ≤ selectorOf k ∨ s.cfgv = true) .noCfg s <|
  if selectorOf k ≤ 9 then withSymbol params s.ver s.ecl fun p => respond (val24 (symbolParam p (selectorOf k))) s
  else respond (val24 (stateParam s (selectorOf k))) s

/-- R119 `RDPAR k` under the default parameters. -/
def execRdpar (k : BitVec 8) (s : State) : Result := execRdparWith defaultParams k s

end Sys2Proof.Machine
end

