-- ==== Sys2Proof/Machine/Coder.lean ====
section
/-! DEFINITION. The field and Reed-Solomon commands: rules R58 to R63. -/

namespace Sys2Proof.Machine

/-- R58 `GFMUL a, b`. -/
def execGfmul (a b : BitVec 8) (s : State) : Result := respond (zextByte (gfMul a b)) s

/-- R59 `GFEXP i`. -/
def execGfexp (i : BitVec 8) (s : State) : Result :=
  require (selectorOf i ≤ 254) .range s <| respond (zextByte (gfExp (selectorOf i))) s

/-- R60 `GFLOG a`: the logarithm of 0 does not exist, and the command then answers `E_PRECOND`. -/
def execGflog (a : BitVec 8) (s : State) : Result :=
  match gfLog a with
  | some i => respond (val24 i) s
  | none => failWith .precond s

/-- R61: `GEN` is written whole: elements above index `k` hold no value afterwards. -/
def installGen (k : Nat) (s : State) : State :=
  { s with gen := numbered 0 (genPoly k), gendeg := BitVec.ofNat 5 k }

/-- `EC[0 .. n-1] <- bytes; ECLEN <- n`. -/
def storeEc (bytes : List Byte) (n : Nat) (s : State) : State :=
  { s with ec := bufWrite s.ec 0 bytes, eclen := BitVec.ofNat 12 n }

/-- R61 `GENP k`. -/
def execGenp (k : BitVec 8) (s : State) : Result :=
  require (1 ≤ selectorOf k ∧ selectorOf k ≤ ecMax) .precond s <|
  respond 0#24 (installGen (selectorOf k) s)

/-- R62: what `RSRAW k` writes. -/
def rsrawState (k : Nat) (s : State) : State :=
  flagsAfterRaw (storeEc (rsEncode (readRun .dc s.dc 0 s.dclen.toNat) k) k (installGen k s))

/-- R62 `RSRAW k`: the range of `k` before the emptiness of the block (R138). -/
def execRsraw (k : BitVec 8) (s : State) : Result :=
  require (1 ≤ selectorOf k ∧ selectorOf k ≤ ecMax) .precond s <|
  require (1 ≤ s.dclen.toNat) .precond s <|
  withElement .dc (s.dclen.toNat - 1) <|
  respond (val24 (selectorOf k)) (rsrawState (selectorOf k) s)

/-- R63: what `RSBLKS` writes. -/
def rsblksState (p : Symbol) (s : State) : State :=
  flagsAfterBlocks (storeEc (blocksEc p (readByte .dc s.dc)) (p.b * p.e) (installGen p.e s))

/-- R63 `RSBLKS`: answers `B*E`. -/
def execRsblksWith (params : Params) (s : State) : Result :=
  require (s.cfgv = true) .noCfg s <|
  withSymbol params s.ver s.ecl fun p =>
  require (s.dclen.toNat = dataCount p) .len s <|
  respond (val24 (p.b * p.e)) (rsblksState p s)

/-- R63 `RSBLKS` under the default parameters. -/
def execRsblks (s : State) : Result := execRsblksWith defaultParams s

end Sys2Proof.Machine
end

