-- ==== Sys2Proof/Machine/Grid.lean ====
section
/-! DEFINITION. The interleaver and grid commands: rules R79, R101, R110 and R111. -/

namespace Sys2Proof.Machine

/-- R79: what `ILV` writes. -/
def ilvState (p : Symbol) (s : State) : State :=
  flagsAfterIlv { s with cw := bufWrite s.cw 0 (interleave p (readByte .dc s.dc) (readByte .ec s.ec)) }

/-- R79 `ILV`: answers `T`. -/
def execIlvWith (params : Params) (s : State) : Result :=
  require (s.ecv = true) .notReady s <|
  withSymbol params s.ver s.ecl fun p => respond (val24 p.t) (ilvState p s)

/-- R79 `ILV` under the default parameters. -/
def execIlv (s : State) : Result := execIlvWith defaultParams s

/-- R101: what `LAYOUT` writes: all three grid spaces on `0 .. N*N-1`; `put` writes `d` as colour and as dark flag (R85). -/
def layoutState (p : Symbol) (s : State) : State :=
  flagsAfterLayout
    { s with
      data := bufWrite s.data 0 ((layoutMarks p).map (·.dark))
      rsvtag := bufWrite s.rsvtag 0 ((layoutMarks p).map (·.tag))
      rsvdark := bufWrite s.rsvdark 0 ((layoutMarks p).map (·.dark)) }

/-- R101 `LAYOUT`: answers `U(VER)`. -/
def execLayoutWith (params : Params) (s : State) : Result :=
  require (s.cfgv = true) .noCfg s <|
  withSymbol params s.ver s.ecl fun p => respond (val24 (unreservedCount p)) (layoutState p s)

/-- R101 `LAYOUT` under the default parameters. -/
def execLayout (s : State) : Result := execLayoutWith defaultParams s

/-- R108: the cells that `PLACE` writes, in order. -/
def placeTargets (p : Symbol) (s : State) : List Nat := placementCells p.n (readTag s.rsvtag)

/-- R110: what `PLACE` writes: `DATA` at the unreserved cells. -/
def placeState (p : Symbol) (s : State) : State :=
  flagsAfterPlace
    { s with data := placeBits (streamBit p.t (readByte .cw s.cw)) (placeTargets p s) 0 s.data }

/-- R110 `PLACE`: answers the number of bits placed. -/
def execPlaceWith (params : Params) (s : State) : Result :=
  require (s.cwv = true) .notReady s <|
  require (s.layv = true) .notReady s <|
  withSymbol params s.ver s.ecl fun p => respond (val24 (placeTargets p s).length) (placeState p s)

/-- R110 `PLACE` under the default parameters. -/
def execPlace (s : State) : Result := execPlaceWith defaultParams s

/-- R111: the four stages in order. -/
def runState (p : Symbol) (s : State) : State :=
  placeState p (layoutState p (ilvState p (rsblksState p s)))

/-- R111 `RUN`: both tests before anything is written; answers `T`. -/
def execRunWith (params : Params) (s : State) : Result :=
  require (s.cfgv = true) .noCfg s <|
  withSymbol params s.ver s.ecl fun p =>
  require (s.dclen.toNat = dataCount p) .len s <|
  respond (val24 p.t) (runState p s)

/-- R111 `RUN` under the default parameters. -/
def execRun (s : State) : Result := execRunWith defaultParams s

end Sys2Proof.Machine
end

