-- ==== Sys2Proof/Machine/Ports.lean ====
section
/-! DEFINITION. The data ports: rules R120 to R125. A read tests its flag first, then its index (R35). -/

namespace Sys2Proof.Machine

/-- R120: what `PUSHD b` writes. -/
def pushState (b : BitVec 8) (s : State) : State :=
  flagsAfterPush { s with dc := bufSet s.dc s.dclen.toNat b, dclen := s.dclen + 1#12 }

/-- R120 `PUSHD b`: answers the new count. -/
def execPushd (b : BitVec 8) (s : State) : Result :=
  require (s.dclen.toNat < dcCap) .full s <|
  respond (val24 (s.dclen.toNat + 1)) (pushState b s)

/-- R121 `RDDC i`. -/
def execRddc (i : BitVec 16) (s : State) : Result :=
  require (indexOf i < s.dclen.toNat) .range s <|
  withElement .dc (indexOf i) <|
  respond (zextByte (readByte .dc s.dc (indexOf i))) s

/-- R122 `RDEC i`. -/
def execRdec (i : BitVec 16) (s : State) : Result :=
  require (s.rawv = true ∨ s.ecv = true) .notReady s <|
  require (indexOf i < s.eclen.toNat) .range s <|
  withElement .ec (indexOf i) <|
  respond (zextByte (readByte .ec s.ec (indexOf i))) s

/-- R123 `RDCW i`. -/
def execRdcwWith (params : Params) (i : BitVec 16) (s : State) : Result :=
  require (s.cwv = true) .notReady s <|
  withSymbol params s.ver s.ecl fun p =>
  require (indexOf i < p.t) .range s <|
  respond (zextByte (readByte .cw s.cw (indexOf i))) s

/-- R123 `RDCW i` under the default parameters. -/
def execRdcw (i : BitVec 16) (s : State) : Result := execRdcwWith defaultParams i s

/-- R124 `RDGEN i`. -/
def execRdgen (i : BitVec 16) (s : State) : Result :=
  require (1 ≤ s.gendeg.toNat) .notReady s <|
  require (indexOf i ≤ s.gendeg.toNat) .range s <|
  withElement .gen (indexOf i) <|
  respond (zextByte (readByte .gen s.gen (indexOf i))) s

/-- R125 `RDMOD i`: the three elements at one index of the grid spaces together (R32). -/
def execRdmodWith (params : Params) (i : BitVec 16) (s : State) : Result :=
  require (s.layv = true) .notReady s <|
  withSymbol params s.ver s.ecl fun p =>
  require (indexOf i < p.n * p.n) .range s <|
  respond (cellVal (readTag s.rsvtag (indexOf i)) (readBit .rsvdark s.rsvdark (indexOf i))
    (readBit .data s.data (indexOf i))) s

/-- R125 `RDMOD i` under the default parameters. -/
def execRdmod (i : BitVec 16) (s : State) : Result := execRdmodWith defaultParams i s

end Sys2Proof.Machine
end

