-- ==== Sys2Proof/Machine/Dispatch.lean ====
section
/-! DEFINITION. One arm for each constructor of `Instr`: a direct call of its meaning. -/

namespace Sys2Proof.Machine

def exec (i : Instr) (s : State) : Host.Outcome State Fault Refusal :=
  match i with
  | .nop => Sys2Proof.Machine.execNop s
  | .clr => Sys2Proof.Machine.execClr s
  | .cfg ver ecl => Sys2Proof.Machine.execCfg ver ecl s
  | .rdstat => Sys2Proof.Machine.execRdstat s
  | .rdpar k => Sys2Proof.Machine.execRdpar k s
  | .gfmul a b => Sys2Proof.Machine.execGfmul a b s
  | .gfexp e => Sys2Proof.Machine.execGfexp e s
  | .gflog a => Sys2Proof.Machine.execGflog a s
  | .genp k => Sys2Proof.Machine.execGenp k s
  | .rsraw k => Sys2Proof.Machine.execRsraw k s
  | .rsblks => Sys2Proof.Machine.execRsblks s
  | .ilv => Sys2Proof.Machine.execIlv s
  | .layout => Sys2Proof.Machine.execLayout s
  | .place => Sys2Proof.Machine.execPlace s
  | .run => Sys2Proof.Machine.execRun s
  | .pushd b => Sys2Proof.Machine.execPushd b s
  | .rddc k => Sys2Proof.Machine.execRddc k s
  | .rdec k => Sys2Proof.Machine.execRdec k s
  | .rdcw k => Sys2Proof.Machine.execRdcw k s
  | .rdgen k => Sys2Proof.Machine.execRdgen k s
  | .rdmod k => Sys2Proof.Machine.execRdmod k s

end Sys2Proof.Machine
end

