-- ==== Sys2Proof/Machine/Port.lean ====
section
/-! DEFINITION. The command port: rules R40, R45, R46 and R150. -/

namespace Sys2Proof.Machine

/-- R45, R46: a word is illegal, malformed, or a command whose own rule (`run`) applies. -/
def runWordBy (run : Instr → State → Result) (w : Word) (s : State) : Result :=
  match decode w with
  | .illegal => failWith .badOp s
  | .malformed => failWith .badArg s
  | .wellFormed i => run i s

/-- R150: the hardware reset: the reset state and no response; what the host still has to present stays. -/
def hardReset (s : State) : State := clearState s

/-- The block serves one input of the host (R40, R150, R158). A command that a reset abandons leaves nothing but the reset
state. -/
def serveBy (run : Instr → State → Result) (x : HostInput) (s : State) : Result :=
  match x with
  | .command w => runWordBy run w s
  | .reset => .next (hardReset s)
  | .resetDuring _ => .next (hardReset s)

/-- One step: the next input is taken from the port and served; with none, the block is idle and keeps all state
(R144, R158). -/
def stepPortBy (run : Instr → State → Result) (s : State) : Result :=
  match s.inputs with
  | [] => .next s
  | x :: rest => serveBy run x { s with inputs := rest }

/-- A word under the default parameters. -/
def runWord (w : Word) (s : State) : Result := runWordBy exec w s

/-- An input under the default parameters. -/
def serve (x : HostInput) (s : State) : Result := serveBy exec x s

/-- A step under the default parameters. -/
def stepPort (s : State) : Result := stepPortBy exec s

/-- The host presents `w` next. -/
def present (w : Word) (s : State) : State := { s with inputs := .command w :: s.inputs }

end Sys2Proof.Machine
end

