-- ==== Sys2Proof/Machine/Step.lean ====
section
/-! DEFINITION. One step of the block, and how an instruction is put where the next step takes it. -/

namespace Sys2Proof.Machine

/-- One command is one step (R7, R25, R40). -/
def step (s : State) : Host.Outcome State Fault Refusal := stepPort s

/-- `s` with the host presenting the table word next; nothing else changes. -/
def State.withFetchWord (s : State) (nbits w : Nat) : State := present (tableWord nbits w) s

end Sys2Proof.Machine
end

