-- ==== Sys2Proof/Machine/Parameters.lean ====
section
/-! DEFINITION. The block under any parameters (R5, R24, D11, D19, U15, U16): the step function with the tables and `SEP_TAG` as
an argument. `exec` and `step` are its instances at the default parameters. -/

namespace Sys2Proof.Machine

/-- A command under given parameters; the commands that read no table and write no separator do not depend on them. -/
def execWith (params : Params) (i : Instr) (s : State) : Result :=
  match i with
  | .nop => execNop s
  | .clr => execClr s
  | .cfg ver ecl => execCfgWith params ver ecl s
  | .rdstat => execRdstat s
  | .rdpar k => execRdparWith params k s
  | .gfmul a b => execGfmul a b s
  | .gfexp e => execGfexp e s
  | .gflog a => execGflog a s
  | .genp k => execGenp k s
  | .rsraw k => execRsraw k s
  | .rsblks => execRsblksWith params s
  | .ilv => execIlvWith params s
  | .layout => execLayoutWith params s
  | .place => execPlaceWith params s
  | .run => execRunWith params s
  | .pushd b => execPushd b s
  | .rddc k => execRddc k s
  | .rdec k => execRdec k s
  | .rdcw k => execRdcwWith params k s
  | .rdgen k => execRdgen k s
  | .rdmod k => execRdmodWith params k s

/-- A word under given parameters. -/
def runWordWith (params : Params) (w : Word) (s : State) : Result := runWordBy (execWith params) w s

/-- One step under given parameters; ill-formed parameters are refused, not evaluated (U15). -/
def stepWith (params : Params) (s : State) : Result :=
  if paramsWellFormed params then stepPortBy (execWith params) s else .refused .illFormedParameters

end Sys2Proof.Machine
end

