-- ==== Sys2Proof/WellFormed.lean ====
section
/-! DEFINITION. Well-formed command words, straight from the `match` and `mask` columns of rule R44. The operands of
`Instr` have the widths of their fields, so every term of `Instr` is well-formed; what can be ill-formed is a WORD.
`Decode.lean` reads the other columns (opcode and format) and is stated to agree with this check. -/

namespace Sys2Proof.WellFormed

/-- The `(match, mask)` columns of rule R44, in the table's order. -/
def matchMask : List (Word × Word) :=
  [ (0x00000000#32, 0xFFFFFFFF#32)  -- NOP
  , (0x01000000#32, 0xFFFFFFFF#32)  -- CLR
  , (0x02000000#32, 0xFFFFFCC0#32)  -- CFG
  , (0x03000000#32, 0xFFFFFFFF#32)  -- RDSTAT
  , (0x04000000#32, 0xFFFFFF00#32)  -- RDPAR
  , (0x10000000#32, 0xFFFF0000#32)  -- GFMUL
  , (0x11000000#32, 0xFFFFFF00#32)  -- GFEXP
  , (0x12000000#32, 0xFFFFFF00#32)  -- GFLOG
  , (0x13000000#32, 0xFFFFFF00#32)  -- GENP
  , (0x14000000#32, 0xFFFFFF00#32)  -- RSRAW
  , (0x15000000#32, 0xFFFFFFFF#32)  -- RSBLKS
  , (0x20000000#32, 0xFFFFFFFF#32)  -- ILV
  , (0x30000000#32, 0xFFFFFFFF#32)  -- LAYOUT
  , (0x38000000#32, 0xFFFFFFFF#32)  -- PLACE
  , (0x3F000000#32, 0xFFFFFFFF#32)  -- RUN
  , (0x40000000#32, 0xFFFFFF00#32)  -- PUSHD
  , (0x41000000#32, 0xFFFF0000#32)  -- RDDC
  , (0x42000000#32, 0xFFFF0000#32)  -- RDEC
  , (0x43000000#32, 0xFFFF0000#32)  -- RDCW
  , (0x44000000#32, 0xFFFF0000#32)  -- RDGEN
  , (0x45000000#32, 0xFFFF0000#32) ] -- RDMOD

/-- R44: a word is the command of a row exactly when its opcode byte is the row's. -/
def knownOp (w : Word) : Bool :=
  matchMask.any fun row => (w &&& 0xFF000000#32) == row.1

/-- R44: a word is a well-formed instance when, for its row, `w & mask = match`. -/
def word (w : Word) : Bool :=
  matchMask.any fun row => (w &&& row.2) == row.1

end Sys2Proof.WellFormed
end

