-- ==== Sys2Proof/Safety.lean ====
section
/-! DEFINITION. The terms that claims use: outcomes of a command (R42, R135, R137), the invariants of a good state (R13, R14,
R27), the tables of R126 and R139, and two reference designs that the model is claimed to agree with: the layout as a
sequence of writes (R87 to R100) and the zigzag filler as a one-cell machine (R107). -/

namespace Sys2Proof.Safety

open Sys2Proof.Machine

/-! ## Outcomes -/

/-- R41 to R46: the words with opcode `op` are the command `build arg` where no bit of `reserved` is set in the argument;
where one is set, the word is answered `E_BADARG` and changes only `FERR`. -/
def EncodedAs (op : Byte) (reserved : Val) (build : Val → Instr) : Prop :=
  ∀ arg : Val,
    (arg &&& reserved = 0#24 → decode (op ++ arg) = .wellFormed (build arg)) ∧
    (arg &&& reserved ≠ 0#24 → ∀ s : State,
      runWord (op ++ arg) s =
        .next { s with ferr := if s.ferr = 0#8 then 0x02#8 else s.ferr, resp := some 0x02000000#32 })

/-- R42: the command completes in `t` with value `v`: status 0 in bits 31:24, the value below. -/
def CompletesIn (i : Instr) (s t : State) (v : Val) : Prop :=
  exec i s = .next t ∧ t.resp = some (0x00#8 ++ v)

/-- R39, R42: the command completes with value `v` and changes nothing but the response port. -/
def Reads (i : Instr) (s : State) (v : Val) : Prop :=
  exec i s = .next { s with resp := some (0x00#8 ++ v) }

/-- R15, R42, R137: the command fails: status `code`, value 0, `FERR` takes the code if it was 0, nothing else changes. -/
def FailsWith (i : Instr) (s : State) (code : Byte) : Prop :=
  exec i s = .next { s with ferr := if s.ferr = 0#8 then code else s.ferr, resp := some (code ++ 0#24) }

/-- The status byte of the response on the port (R42), 0 when there is none. -/
def statusOf (t : State) : Byte :=
  match t.resp with
  | some w => w.extractLsb' 24 8
  | none => 0#8

/-- R11: the configured version is legal. -/
def LegalVersion (s : State) : Prop := 1 ≤ s.ver.toNat ∧ s.ver.toNat ≤ 40

/-- Everything of rule R10 but `FERR` is the same in two states: registers, counters, flags, and every element of every
space. -/
def SameButFerr (s t : State) : Prop :=
  t.ver = s.ver ∧ t.ecl = s.ecl ∧ t.dclen = s.dclen ∧ t.eclen = s.eclen ∧ t.gendeg = s.gendeg ∧
  t.cfgv = s.cfgv ∧ t.rawv = s.rawv ∧ t.ecv = s.ecv ∧ t.cwv = s.cwv ∧ t.layv = s.layv ∧ t.plv = s.plv ∧
  t.gen = s.gen ∧ t.dc = s.dc ∧ t.ec = s.ec ∧ t.cw = s.cw ∧ t.data = s.data ∧ t.rsvtag = s.rsvtag ∧
  t.rsvdark = s.rsvdark

/-- Two spaces hold the same elements. -/
def SameElements {α : Type} (b c : Buffer α) : Prop := ∀ i, bufGet c i = bufGet b i

/-- Two spaces hold the same elements outside a run of `n` elements from 0. -/
def SameFrom {α : Type} (n : Nat) (b c : Buffer α) : Prop := ∀ i, n ≤ i → bufGet c i = bufGet b i

/-! ## Invariants -/

/-- R27 with R11: what holds in every state reachable from reset, under given parameters. -/
structure InvFor (params : Params) (s : State) : Prop where
  /-- R27 item 1. -/
  unconfigured : s.cfgv = false → s.ecv = false ∧ s.cwv = false ∧ s.layv = false ∧ s.plv = false
  /-- R11. -/
  version : s.cfgv = true → LegalVersion s
  /-- R27 item 2. -/
  blocks : s.ecv = true → s.cfgv = true ∧ s.rawv = false ∧
    ∃ p, symbolWith params s.ver s.ecl = some p ∧ s.dclen.toNat = p.t - p.b * p.e ∧ s.eclen.toNat = p.b * p.e
  /-- R27 item 3. -/
  raw : s.rawv = true → 1 ≤ s.dclen.toNat ∧ 1 ≤ s.eclen.toNat ∧ s.eclen.toNat ≤ 30 ∧
    s.ecv = false ∧ s.cwv = false ∧ s.plv = false
  /-- R27 item 4. -/
  codewords : s.cwv = true → s.ecv = true
  /-- R27 item 5. -/
  placed : s.plv = true → s.cwv = true ∧ s.layv = true
  /-- R27 item 6. -/
  dcBound : s.dclen.toNat ≤ 2956
  /-- R27 item 6. -/
  ecBound : s.eclen.toNat ≤ 2430
  /-- R27 item 6. -/
  genBound : s.gendeg.toNat ≤ 30
  /-- R27 item 7. -/
  genLead : 1 ≤ s.gendeg.toNat → bufGet s.gen 0 = some 0x01#8

/-- R13, R22: every element inside its window holds a value that a command wrote, so no command of a run ever reads an
unspecified element. -/
structure WindowsDefinedFor (params : Params) (s : State) : Prop where
  dc : ∀ i, i < s.dclen.toNat → (bufGet s.dc i).isSome = true
  ec : s.rawv = true ∨ s.ecv = true → ∀ i, i < s.eclen.toNat → (bufGet s.ec i).isSome = true
  gen : 1 ≤ s.gendeg.toNat → ∀ i, i ≤ s.gendeg.toNat → (bufGet s.gen i).isSome = true
  cw : s.cwv = true → ∀ p, symbolWith params s.ver s.ecl = some p → ∀ i, i < p.t → (bufGet s.cw i).isSome = true
  grid : s.layv = true → ∀ p, symbolWith params s.ver s.ecl = some p → ∀ i, i < p.n * p.n →
    (bufGet s.data i).isSome = true ∧ (bufGet s.rsvtag i).isSome = true ∧ (bufGet s.rsvdark i).isSome = true

/-- R14, column "means": what each validity flag says is true of the present configuration and data. -/
structure FlagsTruthfulFor (params : Params) (s : State) : Prop where
  /-- `RAWV`: `EC[0 .. ECLEN-1]` is `rs_encode(DC[0 .. DCLEN-1], ECLEN)`. -/
  rawv : s.rawv = true →
    readRun .ec s.ec 0 s.eclen.toNat = rsEncode (readRun .dc s.dc 0 s.dclen.toNat) s.eclen.toNat
  /-- `ECV`: `EC` holds the EC codewords of every block of `DC`. -/
  ecv : s.ecv = true → ∀ p, symbolWith params s.ver s.ecl = some p →
    readRun .ec s.ec 0 (p.b * p.e) = blocksEc p (readByte .dc s.dc)
  /-- `CWV`: `CW[0 .. T-1]` is the interleaving of `DC` and `EC`. -/
  cwv : s.cwv = true → ∀ p, symbolWith params s.ver s.ecl = some p →
    readRun .cw s.cw 0 p.t = interleave p (readByte .dc s.dc) (readByte .ec s.ec)
  /-- `LAYV`: the grid spaces hold the structural layout of `VER` (with R97: colour and dark flag agree on reserved cells). -/
  layv : s.layv = true → ∀ p, symbolWith params s.ver s.ecl = some p → ∀ r c, r < p.n → c < p.n →
    readTag s.rsvtag (r * p.n + c) = (layoutCell p r c).tag ∧
    readBit .rsvdark s.rsvdark (r * p.n + c) = (layoutCell p r c).dark ∧
    ((layoutCell p r c).tag ≠ .none → readBit .data s.data (r * p.n + c) = (layoutCell p r c).dark)
  /-- `PLV`: the unreserved cells of `DATA` hold the bits of `CW` (R108). -/
  plv : s.plv = true → ∀ p, symbolWith params s.ver s.ecl = some p → ∀ k i,
    (placementCells p.n (readTag s.rsvtag))[k]? = some i →
    readBit .data s.data i = streamBit p.t (readByte .cw s.cw) k

/-- The invariant of R27 under the default parameters. -/
abbrev Inv (s : State) : Prop := InvFor defaultParams s

/-- The windows under the default parameters. -/
abbrev WindowsDefined (s : State) : Prop := WindowsDefinedFor defaultParams s

/-- The flags under the default parameters. -/
abbrev FlagsTruthful (s : State) : Prop := FlagsTruthfulFor defaultParams s

/-- R71, R74: the columns `T` and `REM` of the block table, which the spec derives from the layout, versions 1 to 40. -/
def codewordColumns : List (Nat × Nat) :=
  [(26, 0), (44, 7), (70, 7), (100, 7), (134, 7), (172, 7), (196, 0), (242, 0), (292, 0), (346, 0)]
  ++ [(404, 0), (466, 0), (532, 0), (581, 3), (655, 3), (733, 3), (815, 3), (901, 3), (991, 3), (1085, 3)]
  ++ [(1156, 4), (1258, 4), (1364, 4), (1474, 4), (1588, 4), (1706, 4), (1828, 4), (1921, 3), (2051, 3), (2185, 3)]
  ++ [(2323, 3), (2465, 3), (2611, 3), (2761, 3), (2876, 0), (3034, 0), (3196, 0), (3362, 0), (3532, 0), (3706, 0)]

/-! ## The tables of R17, R126 and R139 -/

/-- R17: the value of `PAR[k]` for selectors 0 to 9. -/
def parOfSymbol (v : Nat) (p : Symbol) : Nat → Nat
  | 0 => 4 * v + 17
  | 1 => p.t
  | 2 => p.t - p.b * p.e
  | 3 => p.b
  | 4 => p.e
  | 5 => p.b - p.t % p.b
  | 6 => p.t % p.b
  | 7 => p.t / p.b - p.e
  | 8 => p.rem
  | _ => (4 * v + 17) * (4 * v + 17)

/-- What a row of R126 says of one flag. -/
inductive FlagEffect where
  | set
  | clear
  | keep
  deriving DecidableEq, Repr

/-- A flag before and after, against the table's entry. -/
def FlagEffect.Holds : FlagEffect → Bool → Bool → Prop
  | .set, _, after => after = true
  | .clear, _, after => after = false
  | .keep, before, after => after = before

/-- A row of R126: the effects on `CFGV`, `RAWV`, `ECV`, `CWV`, `LAYV`, `PLV`. -/
structure FlagRow where
  cfgv : FlagEffect
  rawv : FlagEffect
  ecv : FlagEffect
  cwv : FlagEffect
  layv : FlagEffect
  plv : FlagEffect

/-- The table of R126. -/
def flagTable : Instr → FlagRow
  | .nop | .rdstat | .rdpar _ | .gfmul _ _ | .gfexp _ | .gflog _ | .rddc _ | .rdec _ | .rdcw _ | .rdgen _ | .rdmod _ =>
    ⟨.keep, .keep, .keep, .keep, .keep, .keep⟩
  | .clr => ⟨.clear, .clear, .clear, .clear, .clear, .clear⟩
  | .cfg _ _ => ⟨.set, .clear, .clear, .clear, .clear, .clear⟩
  | .pushd _ => ⟨.keep, .clear, .clear, .clear, .keep, .clear⟩
  | .genp _ => ⟨.keep, .keep, .keep, .keep, .keep, .keep⟩
  | .rsraw _ => ⟨.keep, .set, .clear, .clear, .keep, .clear⟩
  | .rsblks => ⟨.keep, .clear, .set, .clear, .keep, .clear⟩
  | .ilv => ⟨.keep, .keep, .keep, .set, .keep, .clear⟩
  | .layout => ⟨.keep, .keep, .keep, .keep, .set, .clear⟩
  | .place => ⟨.keep, .keep, .keep, .keep, .keep, .set⟩
  | .run => ⟨.keep, .clear, .set, .set, .set, .set⟩

/-- Two states agree with a row of R126. -/
def FlagRow.Holds (row : FlagRow) (s t : State) : Prop :=
  row.cfgv.Holds s.cfgv t.cfgv ∧ row.rawv.Holds s.rawv t.rawv ∧ row.ecv.Holds s.ecv t.ecv ∧
  row.cwv.Holds s.cwv t.cwv ∧ row.layv.Holds s.layv t.layv ∧ row.plv.Holds s.plv t.plv

/-- R126, column "counters written": a counter that the row does not name keeps its value, `CLR` and `CFG` put to 0 what they
name, and `PUSHD` adds 1 to `DCLEN`. -/
def countersAgree (i : Instr) (s t : State) : Prop :=
  match i with
  | .clr => t.dclen = 0#12 ∧ t.eclen = 0#12 ∧ t.gendeg = 0#5
  | .cfg _ _ => t.dclen = 0#12 ∧ t.eclen = 0#12 ∧ t.gendeg = s.gendeg
  | .pushd _ => t.dclen.toNat = s.dclen.toNat + 1 ∧ t.eclen = s.eclen ∧ t.gendeg = s.gendeg
  | .genp _ => t.dclen = s.dclen ∧ t.eclen = s.eclen
  | .rsraw _ | .rsblks | .run => t.dclen = s.dclen
  | _ => t.dclen = s.dclen ∧ t.eclen = s.eclen ∧ t.gendeg = s.gendeg

/-- R139: the status bytes that a well-formed command can answer (`E_BADARG` is the answer to a malformed word). -/
def possibleStatuses : Instr → List Byte
  | .nop | .clr | .rdstat => [0x00#8]
  | .cfg _ _ => [0x00#8, 0x03#8]
  | .rdpar _ => [0x00#8, 0x08#8, 0x05#8]
  | .gfmul _ _ => [0x00#8]
  | .gfexp _ => [0x00#8, 0x08#8]
  | .gflog _ => [0x00#8, 0x04#8]
  | .genp _ | .rsraw _ => [0x00#8, 0x04#8]
  | .rsblks | .run => [0x00#8, 0x05#8, 0x06#8]
  | .ilv | .place => [0x00#8, 0x07#8]
  | .layout => [0x00#8, 0x05#8]
  | .pushd _ => [0x00#8, 0x09#8]
  | .rddc _ => [0x00#8, 0x08#8]
  | .rdec _ | .rdcw _ | .rdgen _ | .rdmod _ => [0x00#8, 0x07#8, 0x08#8]

/-- R39: the commands that only read. -/
def isRead : Instr → Bool
  | .nop | .rdstat | .rdpar _ | .gfmul _ _ | .gfexp _ | .gflog _ | .rddc _ | .rdec _ | .rdcw _ | .rdgen _ | .rdmod _ => true
  | _ => false

/-- R18 to R23, "written only by": the spaces that a command may write. `CLR` leaves every space unspecified (R26). -/
def writtenSpaces : Instr → List Space
  | .clr => [.dc, .ec, .cw, .gen, .data, .rsvtag, .rsvdark]
  | .pushd _ => [.dc]
  | .genp _ => [.gen]
  | .rsraw _ | .rsblks => [.gen, .ec]
  | .ilv => [.cw]
  | .layout => [.data, .rsvtag, .rsvdark]
  | .place => [.data]
  | .run => [.gen, .ec, .cw, .data, .rsvtag, .rsvdark]
  | _ => []

/-- R26: the reset values of every register, counter and flag, and that no buffer element can be read. -/
def ResetValues (t : State) : Prop :=
  t.ver = 0#6 ∧ t.ecl = 0#2 ∧ t.dclen = 0#12 ∧ t.eclen = 0#12 ∧ t.gendeg = 0#5 ∧
  t.cfgv = false ∧ t.rawv = false ∧ t.ecv = false ∧ t.cwv = false ∧ t.layv = false ∧ t.plv = false ∧
  t.ferr = 0#8 ∧
  ∀ i, FailsWith (.rddc i) t 0x08#8 ∧ FailsWith (.rdec i) t 0x07#8 ∧ FailsWith (.rdcw i) t 0x07#8 ∧
    FailsWith (.rdgen i) t 0x07#8 ∧ FailsWith (.rdmod i) t 0x07#8

/-- R18, R55: after a polynomial of degree `k` was built: `GENDEG` is `k`, `GEN[0 .. k]` holds it, and no element above
index `k` holds a value (R61). -/
def HoldsGenerator (t : State) (k : Nat) : Prop :=
  t.gendeg.toNat = k ∧ (∀ i, i ≤ k → bufGet t.gen i = (genPoly k)[i]?) ∧ ∀ i, k < i → bufGet t.gen i = none

/-! ## Reference design 1: the layout as a sequence of writes -/

/-- One `put(r, c, tag, d)` of rule R85. -/
structure Put where
  row : Nat
  col : Nat
  mark : Mark

/-- R100: first `put(r, c, None, 0)` on every cell. -/
def clearPuts (n : Nat) : List Put :=
  (List.range n).flatMap fun r => (List.range n).map fun c => ⟨r, c, ⟨.none, false⟩⟩

/-- R88. -/
def finderPuts (n : Nat) : List Put :=
  [(0, 0), (0, n - 7), (n - 7, 0)].flatMap fun o =>
    (List.range 7).flatMap fun r => (List.range 7).map fun c => ⟨o.1 + r, o.2 + c, ⟨.finder, finderColour r c⟩⟩

/-- R89, with the tag `SEP_TAG`. -/
def separatorPuts (sepTag : Tag) (n : Nat) : List Put :=
  (List.range 8).flatMap fun k =>
    [ ⟨7, k, ⟨sepTag, false⟩⟩, ⟨k, 7, ⟨sepTag, false⟩⟩
    , ⟨7, n - 8 + k, ⟨sepTag, false⟩⟩, ⟨k, n - 8, ⟨sepTag, false⟩⟩
    , ⟨n - 8, k, ⟨sepTag, false⟩⟩, ⟨n - 8 + k, 7, ⟨sepTag, false⟩⟩ ]

/-- R90: `k` in `8 .. N-9`. -/
def timingPuts (n : Nat) : List Put :=
  (List.range (n - 16)).flatMap fun j =>
    [ ⟨6, 8 + j, ⟨.timing, decide ((8 + j) % 2 = 0)⟩⟩, ⟨8 + j, 6, ⟨.timing, decide ((8 + j) % 2 = 0)⟩⟩ ]

/-- R93: `dr` and `dc` run from -2 to 2; here `i` and `j` are `dr + 2` and `dc + 2`. -/
def alignmentPuts (pos : List Nat) : List Put :=
  pos.flatMap fun a => pos.flatMap fun b =>
    if skippedCentre pos a b then []
    else
      (List.range 5).flatMap fun i => (List.range 5).map fun j =>
        ⟨a + i - 2, b + j - 2, ⟨.alignment, decide (max (coordDist i 2) (coordDist j 2) ≠ 1)⟩⟩

/-- R95. -/
def versionPuts (v n : Nat) : List Put :=
  if 7 ≤ v then
    (List.range 18).flatMap fun i =>
      [ ⟨i / 3, n - 11 + i % 3, ⟨.versionInfo, (versionWord v).getLsbD i⟩⟩
      , ⟨n - 11 + i % 3, i / 3, ⟨.versionInfo, (versionWord v).getLsbD i⟩⟩ ]
  else []

/-- R98. -/
def formatPuts (n : Nat) : List Put :=
  ([0, 1, 2, 3, 4, 5, 7, 8].map fun k => ⟨8, k, ⟨.formatInfo, false⟩⟩)
    ++ ([0, 1, 2, 3, 4, 5, 7].map fun k => ⟨k, 8, ⟨.formatInfo, false⟩⟩)
    ++ ((List.range 8).map fun k => ⟨8, n - 8 + k, ⟨.formatInfo, false⟩⟩)
    ++ ((List.range 7).map fun k => ⟨n - 7 + k, 8, ⟨.formatInfo, false⟩⟩)

/-- R99. -/
def darkModulePuts (n : Nat) : List Put := [⟨n - 8, 8, ⟨.darkModule, true⟩⟩]

/-- R87: the stages in their order. -/
def layoutPuts (p : Symbol) : List Put :=
  clearPuts p.n ++ finderPuts p.n ++ separatorPuts p.sepTag p.n ++ timingPuts p.n ++ alignmentPuts p.align
    ++ versionPuts p.ver p.n ++ formatPuts p.n ++ darkModulePuts p.n

/-- What the last write to cell `(r, c)` in a sequence of writes left there. -/
def lastPut (puts : List Put) (r c : Nat) : Option Mark :=
  puts.foldl (fun m x => if x.row = r ∧ x.col = c then some x.mark else m) none

/-! ## Reference design 2: the zigzag filler with one cell a step (R107) -/

/-- The cursors of R107 and `DATA`. -/
structure Filler where
  col : Nat
  row : Nat
  up : Bool
  half : Nat
  k : Nat
  data : Buffer Bool
  deriving DecidableEq, Repr

/-- R107 `init`. -/
def fillerInit (n : Nat) (data : Buffer Bool) : Filler := ⟨n - 1, n - 1, true, 0, 0, data⟩

/-- R107 `step`, enabled while `col >= 1`. -/
def fillerStep (n : Nat) (tagAt : Nat → Tag) (bit : Nat → Bool) (f : Filler) : Filler :=
  if f.col < 1 then f
  else
    let i := f.row * n + (f.col - f.half)
    let free := decide (tagAt i = .none)
    let data := if free then bufSet f.data i (bit f.k) else f.data
    let k := if free then f.k + 1 else f.k
    if f.half = 0 then ⟨f.col, f.row, f.up, 1, k, data⟩
    else if f.up = true ∧ 0 < f.row then ⟨f.col, f.row - 1, f.up, 0, k, data⟩
    else if f.up = false ∧ f.row < n - 1 then ⟨f.col, f.row + 1, f.up, 0, k, data⟩
    else ⟨if f.col - 2 = 6 then 5 else f.col - 2, f.row, !f.up, 0, k, data⟩

/-- A number of steps of the filler. -/
def fillerRun (n : Nat) (tagAt : Nat → Tag) (bit : Nat → Bool) : Nat → Filler → Filler
  | 0, f => f
  | m + 1, f => fillerRun n tagAt bit m (fillerStep n tagAt bit f)

/-! ## Small vocabulary -/

/-- Horner's rule over GF(256), first byte the highest power (V-RS-SYN, R57 item 6). -/
def polyEval (bytes : List Byte) (x : Byte) : Byte := bytes.foldl (fun y b => gfMul y x ^^^ b) 0#8

/-- Element by element exclusive-or of two blocks (R57 item 3). -/
def xorBytes (a b : List Byte) : List Byte := List.zipWith (· ^^^ ·) a b

/-- The number of cells of a symbol with a given tag after `LAYOUT` (R102). -/
def tagCount (p : Symbol) (tag : Tag) : Nat := ((layoutMarks p).filter fun m => decide (m.tag = tag)).length

end Sys2Proof.Safety
end

