-- ==== Sys2Proof/Certificates/Slice0/Obligations.lean ====
section
/-! DEFINITION. The statements for the provers, from the numbered rules of spec/. Free values (log entry 3) are opaque, so every
statement holds for every value of them. -/

open Sys2Proof Sys2Proof.Machine Sys2Proof.Safety

/-! ## System commands (R115 to R119) -/

/-- R115: the word, the answer 0, and no state change. -/
def Obligations.NopAnswersZero : Prop :=
  EncodedAs 0x00#8 0xFFFFFF#24 (fun _ => .nop) ∧ ∀ s : State, Reads .nop s 0#24

/-- R116: `CLR` leaves the reset values of R26, answers 0, and is the only command that clears `FERR` and, besides `CFG`,
the only one that resets `DCLEN`. -/
def Obligations.ClrRestoresResetState : Prop :=
  EncodedAs 0x01#8 0xFFFFFF#24 (fun _ => .clr) ∧
  (∀ s : State, ∃ t, CompletesIn .clr s t 0#24 ∧ ResetValues t ∧ t.inputs = s.inputs) ∧
  (∀ (i : Instr) (s t : State), exec i s = .next t → s.ferr ≠ 0#8 → t.ferr = 0#8 → i = .clr) ∧
  (∀ (i : Instr) (s t : State), exec i s = .next t → t.dclen.toNat < s.dclen.toNat →
    i = .clr ∨ ∃ v l, i = .cfg v l)

/-- R117: a version outside 1 to 40 is `E_BADCFG`; any other starts a new symbol, answers `D`, and leaves `GEN`, `GENDEG`,
`FERR` and every buffer as they were. -/
def Obligations.CfgStartsSymbol : Prop :=
  EncodedAs 0x02#8 0xFFFCC0#24 (fun arg => .cfg (arg.extractLsb' 0 6) (arg.extractLsb' 8 2)) ∧
  (∀ (ver : BitVec 6) (ecl : BitVec 2) (s : State), ver.toNat = 0 ∨ 40 < ver.toNat →
    FailsWith (.cfg ver ecl) s 0x03#8) ∧
  (∀ (ver : BitVec 6) (ecl : BitVec 2) (s : State), 1 ≤ ver.toNat → ver.toNat ≤ 40 →
    ∃ (p : Symbol) (v : Val), symbolOf ver ecl = some p ∧ v.toNat = p.t - p.b * p.e ∧
      exec (.cfg ver ecl) s = .next
        { s with
          ver := ver, ecl := ecl, dclen := 0#12, eclen := 0#12, cfgv := true, rawv := false, ecv := false,
          cwv := false, layv := false, plv := false, resp := some (0x00#8 ++ v) })

/-- R16 and R118: `STAT` bit by bit, reserved bits 0, and no state change. -/
def Obligations.RdstatReportsStatus : Prop :=
  EncodedAs 0x03#8 0xFFFFFF#24 (fun _ => .rdstat) ∧
  ∀ s : State, ∃ v : Val, Reads .rdstat s v ∧
    v.toNat = s.ferr.toNat * 256 + s.plv.toNat * 32 + s.layv.toNat * 16 + s.cwv.toNat * 8 + s.ecv.toNat * 4
      + s.rawv.toNat * 2 + s.cfgv.toNat

/-- R17 and R119: every selector. -/
def Obligations.RdparReportsParameter : Prop :=
  EncodedAs 0x04#8 0xFFFF00#24 (fun arg => .rdpar (arg.extractLsb' 0 8)) ∧
  (∀ (k : BitVec 8) (s : State), 16 ≤ k.toNat → FailsWith (.rdpar k) s 0x08#8) ∧
  (∀ (k : BitVec 8) (s : State), k.toNat ≤ 9 → s.cfgv = false → FailsWith (.rdpar k) s 0x05#8) ∧
  (∀ (k : BitVec 8) (s : State), k.toNat ≤ 9 → s.cfgv = true → LegalVersion s →
    ∃ (p : Symbol) (v : Val), symbolOf s.ver s.ecl = some p ∧ Reads (.rdpar k) s v ∧ v.toNat = parOfSymbol s.ver.toNat p k.toNat) ∧
  (∀ s : State, Reads (.rdpar 10#8) s (BitVec.ofNat 24 s.dclen.toNat) ∧
    Reads (.rdpar 11#8) s (BitVec.ofNat 24 s.eclen.toNat) ∧
    Reads (.rdpar 12#8) s (BitVec.ofNat 24 s.gendeg.toNat) ∧
    Reads (.rdpar 13#8) s (BitVec.ofNat 24 (if s.cfgv then s.ver.toNat else 0)) ∧
    Reads (.rdpar 14#8) s (BitVec.ofNat 24 (if s.cfgv then s.ecl.toNat else 0)) ∧
    Reads (.rdpar 15#8) s 30#24)

/-! ## Field and Reed-Solomon commands (R58 to R63) -/

/-- R58, with its corner case of a zero operand and its example. -/
def Obligations.GfmulAnswersProduct : Prop :=
  EncodedAs 0x10#8 0xFF0000#24 (fun arg => .gfmul (arg.extractLsb' 8 8) (arg.extractLsb' 0 8)) ∧
  (∀ (a b : BitVec 8) (s : State), Reads (.gfmul a b) s ((gfMul a b).setWidth 24)) ∧
  (∀ (a : BitVec 8) (s : State), Reads (.gfmul a 0#8) s 0#24 ∧ Reads (.gfmul 0#8 a) s 0#24) ∧
  ∀ s : State, Reads (.gfmul 0xB4#8 0x0D#8) s 0x97#24

/-- R59: `i = 255` is `E_RANGE`. -/
def Obligations.GfexpAnswersPower : Prop :=
  EncodedAs 0x11#8 0xFFFF00#24 (fun arg => .gfexp (arg.extractLsb' 0 8)) ∧
  (∀ s : State, FailsWith (.gfexp 255#8) s 0x08#8) ∧
  ∀ (i : BitVec 8) (s : State), i.toNat ≤ 254 → Reads (.gfexp i) s ((gfExp i.toNat).setWidth 24)

/-- R60: the logarithm of 0 does not exist. -/
def Obligations.GflogAnswersLogarithm : Prop :=
  EncodedAs 0x12#8 0xFFFF00#24 (fun arg => .gflog (arg.extractLsb' 0 8)) ∧
  (∀ s : State, FailsWith (.gflog 0#8) s 0x04#8) ∧
  ∀ (a : BitVec 8) (s : State), a ≠ 0#8 →
    ∃ n, n ≤ 254 ∧ gfExp n = a ∧ Reads (.gflog a) s (BitVec.ofNat 24 n)

/-- R61: `GEN` and `GENDEG` take the polynomial; no flag and no other buffer changes. -/
def Obligations.GenpBuildsGenerator : Prop :=
  EncodedAs 0x13#8 0xFFFF00#24 (fun arg => .genp (arg.extractLsb' 0 8)) ∧
  (∀ (k : BitVec 8) (s : State), k.toNat = 0 ∨ 30 < k.toNat → FailsWith (.genp k) s 0x04#8) ∧
  ∀ (k : BitVec 8) (s : State), 1 ≤ k.toNat → k.toNat ≤ 30 →
    ∃ t, CompletesIn (.genp k) s t 0#24 ∧ HoldsGenerator t k.toNat ∧
      t = { s with gen := t.gen, gendeg := t.gendeg, resp := t.resp }

/-- R62: the raw encoder: `EC[0 .. k-1]`, `ECLEN`, the generator, the four flags, and nothing else. -/
def Obligations.RsrawEncodesAllOfDc : Prop :=
  EncodedAs 0x14#8 0xFFFF00#24 (fun arg => .rsraw (arg.extractLsb' 0 8)) ∧
  (∀ (k : BitVec 8) (s : State), k.toNat = 0 ∨ 30 < k.toNat ∨ s.dclen.toNat = 0 → FailsWith (.rsraw k) s 0x04#8) ∧
  ∀ (k : BitVec 8) (s : State), 1 ≤ k.toNat → k.toNat ≤ 30 → 1 ≤ s.dclen.toNat → s.dclen.toNat ≤ 2956 →
    ∃ t, CompletesIn (.rsraw k) s t (BitVec.ofNat 24 k.toNat) ∧ HoldsGenerator t k.toNat ∧
      t.eclen.toNat = k.toNat ∧
      (∀ i, i < k.toNat → bufGet t.ec i = (rsEncode (readRun .dc s.dc 0 s.dclen.toNat) k.toNat)[i]?) ∧
      SameFrom k.toNat s.ec t.ec ∧
      t = { s with
            gen := t.gen, gendeg := t.gendeg, ec := t.ec, eclen := t.eclen, rawv := true, ecv := false,
            cwv := false, plv := false, resp := t.resp }

/-- R63: codeword `m` of block `j` goes to `EC[j*E + m]`; the flags; nothing else changes. -/
def Obligations.RsblksEncodesEveryBlock : Prop :=
  EncodedAs 0x15#8 0xFFFFFF#24 (fun _ => .rsblks) ∧
  (∀ s : State, s.cfgv = false → FailsWith .rsblks s 0x05#8) ∧
  (∀ (s : State) (p : Symbol), s.cfgv = true → symbolOf s.ver s.ecl = some p → s.dclen.toNat ≠ p.t - p.b * p.e →
    FailsWith .rsblks s 0x06#8) ∧
  ∀ (s : State) (p : Symbol), s.cfgv = true → symbolOf s.ver s.ecl = some p → s.dclen.toNat = p.t - p.b * p.e →
    ∃ t, CompletesIn .rsblks s t (BitVec.ofNat 24 (p.b * p.e)) ∧ HoldsGenerator t p.e ∧
      t.eclen.toNat = p.b * p.e ∧
      (∀ j m, j < p.b → m < p.e →
        bufGet t.ec (j * p.e + m) = (rsEncode (readRun .dc s.dc (blockOff p j) (blockLen p j)) p.e)[m]?) ∧
      SameFrom (p.b * p.e) s.ec t.ec ∧
      t = { s with
            gen := t.gen, gendeg := t.gendeg, ec := t.ec, eclen := t.eclen, rawv := false, ecv := true,
            cwv := false, plv := false, resp := t.resp }

/-! ## Interleaver and grid commands (R78, R79, R101, R103, R110, R111) -/

/-- R78 (closed form) and R79: where every data and every EC codeword goes; nothing else changes. -/
def Obligations.IlvInterleavesCodewords : Prop :=
  EncodedAs 0x20#8 0xFFFFFF#24 (fun _ => .ilv) ∧
  (∀ s : State, s.ecv = false → FailsWith .ilv s 0x07#8) ∧
  ∀ (s : State) (p : Symbol), s.ecv = true → symbolOf s.ver s.ecl = some p →
    ∃ t, CompletesIn .ilv s t (BitVec.ofNat 24 p.t) ∧
      (∀ i j, i < shortLen p → j < p.b →
        bufGet t.cw (i * p.b + j) = some (readByte .dc s.dc (blockOff p j + i))) ∧
      (∀ j, groupOne p ≤ j → j < p.b →
        bufGet t.cw (shortLen p * p.b + (j - groupOne p)) =
          some (readByte .dc s.dc (blockOff p j + shortLen p))) ∧
      (∀ i j, i < p.e → j < p.b →
        bufGet t.cw (dataCount p + i * p.b + j) = some (readByte .ec s.ec (j * p.e + i))) ∧
      SameFrom p.t s.cw t.cw ∧
      t = { s with cw := t.cw, cwv := true, plv := false, resp := t.resp }

/-- R101 with the closed form of R103: every cell of the grid, the answer `U(VER)`, and nothing else changes;
both depend on `VER` and not on `ECL`. -/
def Obligations.LayoutWritesEveryCell : Prop :=
  EncodedAs 0x30#8 0xFFFFFF#24 (fun _ => .layout) ∧
  (∀ s : State, s.cfgv = false → FailsWith .layout s 0x05#8) ∧
  (∀ (ver : BitVec 6) (ecl ecl' : BitVec 2) (p p' : Symbol), symbolOf ver ecl = some p → symbolOf ver ecl' = some p' →
    p'.t = p.t ∧ p'.rem = p.rem ∧ ∀ r c, layoutCell p' r c = layoutCell p r c) ∧
  ∀ (s : State) (p : Symbol), s.cfgv = true → symbolOf s.ver s.ecl = some p →
    p.n = 4 * s.ver.toNat + 17 ∧
    ∃ t, CompletesIn .layout s t (BitVec.ofNat 24 (8 * p.t + p.rem)) ∧
      (∀ r c, r < p.n → c < p.n →
        bufGet t.data (r * p.n + c) = some (layoutCell p r c).dark ∧
        bufGet t.rsvtag (r * p.n + c) = some (layoutCell p r c).tag ∧
        bufGet t.rsvdark (r * p.n + c) = some (layoutCell p r c).dark) ∧
      SameFrom (p.n * p.n) s.data t.data ∧ SameFrom (p.n * p.n) s.rsvtag t.rsvtag ∧
      SameFrom (p.n * p.n) s.rsvdark t.rsvdark ∧
      t = { s with
            data := t.data, rsvtag := t.rsvtag, rsvdark := t.rsvdark, layv := true, plv := false, resp := t.resp }

/-- R105, R108, R109, R110: the `k`-th unreserved cell of the walk takes bit `k` of the stream, most significant bit of each
codeword first and 0 after the last codeword; every other cell stays; the answer is the number of bits placed. -/
def Obligations.PlaceWritesStreamBits : Prop :=
  EncodedAs 0x38#8 0xFFFFFF#24 (fun _ => .place) ∧
  (∀ s : State, s.cwv = false ∨ s.layv = false → FailsWith .place s 0x07#8) ∧
  ∀ (s : State) (p : Symbol), s.cwv = true → s.layv = true → symbolOf s.ver s.ecl = some p →
    ∃ t, CompletesIn .place s t (BitVec.ofNat 24 (placementCells p.n (readTag s.rsvtag)).length) ∧
      (∀ k i, (placementCells p.n (readTag s.rsvtag))[k]? = some i →
        bufGet t.data i =
          some (if k < 8 * p.t then (readByte .cw s.cw (k / 8)).getLsbD (7 - k % 8) else false)) ∧
      (∀ i, i ∉ placementCells p.n (readTag s.rsvtag) → bufGet t.data i = bufGet s.data i) ∧
      t = { s with data := t.data, plv := true, resp := t.resp }

/-- R111: `RUN` tests before it writes, and equals `RSBLKS`, `ILV`, `LAYOUT`, `PLACE` issued one after another; it answers
`T`. -/
def Obligations.RunEqualsFourStages : Prop :=
  EncodedAs 0x3F#8 0xFFFFFF#24 (fun _ => .run) ∧
  (∀ s : State, s.cfgv = false → FailsWith .run s 0x05#8) ∧
  (∀ (s : State) (p : Symbol), s.cfgv = true → symbolOf s.ver s.ecl = some p → s.dclen.toNat ≠ p.t - p.b * p.e →
    FailsWith .run s 0x06#8) ∧
  ∀ (s : State) (p : Symbol), s.cfgv = true → symbolOf s.ver s.ecl = some p → s.dclen.toNat = p.t - p.b * p.e →
    ∃ t1 t2 t3 t4, exec .rsblks s = .next t1 ∧ exec .ilv t1 = .next t2 ∧ exec .layout t2 = .next t3 ∧
      exec .place t3 = .next t4 ∧ exec .run s = .next { t4 with resp := some (0x00#8 ++ BitVec.ofNat 24 p.t) } ∧
      t4.ecv = true ∧ t4.cwv = true ∧ t4.layv = true ∧ t4.plv = true ∧ t4.rawv = false ∧
      t4.gendeg.toNat = p.e ∧ t4.eclen.toNat = p.b * p.e

/-! ## Data ports (R120 to R125) -/

/-- R120: the byte lands at `DC[DCLEN]`, every other element and `LAYV` stay, the four flags fall. -/
def Obligations.PushdAppendsCodeword : Prop :=
  EncodedAs 0x40#8 0xFFFF00#24 (fun arg => .pushd (arg.extractLsb' 0 8)) ∧
  (∀ (b : BitVec 8) (s : State), 2956 ≤ s.dclen.toNat → FailsWith (.pushd b) s 0x09#8) ∧
  ∀ (b : BitVec 8) (s : State), s.dclen.toNat < 2956 →
    ∃ t, CompletesIn (.pushd b) s t (BitVec.ofNat 24 (s.dclen.toNat + 1)) ∧
      t.dclen.toNat = s.dclen.toNat + 1 ∧
      bufGet t.dc s.dclen.toNat = some b ∧
      (∀ i, i ≠ s.dclen.toNat → bufGet t.dc i = bufGet s.dc i) ∧
      t = { s with
            dc := t.dc, dclen := t.dclen, rawv := false, ecv := false, cwv := false, plv := false, resp := t.resp }

/-- R121. -/
def Obligations.RddcAnswersElement : Prop :=
  EncodedAs 0x41#8 0xFF0000#24 (fun arg => .rddc (arg.extractLsb' 0 16)) ∧
  (∀ (i : BitVec 16) (s : State), s.dclen.toNat ≤ i.toNat → FailsWith (.rddc i) s 0x08#8) ∧
  ∀ (i : BitVec 16) (s : State), i.toNat < s.dclen.toNat → s.dclen.toNat ≤ 2956 →
    Reads (.rddc i) s ((readByte .dc s.dc i.toNat).setWidth 24)

/-- R122: the flags before the index. -/
def Obligations.RdecAnswersElement : Prop :=
  EncodedAs 0x42#8 0xFF0000#24 (fun arg => .rdec (arg.extractLsb' 0 16)) ∧
  (∀ (i : BitVec 16) (s : State), s.rawv = false → s.ecv = false → FailsWith (.rdec i) s 0x07#8) ∧
  (∀ (i : BitVec 16) (s : State), s.rawv = true ∨ s.ecv = true → s.eclen.toNat ≤ i.toNat →
    FailsWith (.rdec i) s 0x08#8) ∧
  ∀ (i : BitVec 16) (s : State), s.rawv = true ∨ s.ecv = true → i.toNat < s.eclen.toNat → s.eclen.toNat ≤ 2430 →
    Reads (.rdec i) s ((readByte .ec s.ec i.toNat).setWidth 24)

/-- R123. -/
def Obligations.RdcwAnswersElement : Prop :=
  EncodedAs 0x43#8 0xFF0000#24 (fun arg => .rdcw (arg.extractLsb' 0 16)) ∧
  (∀ (i : BitVec 16) (s : State), s.cwv = false → FailsWith (.rdcw i) s 0x07#8) ∧
  (∀ (i : BitVec 16) (s : State) (p : Symbol), s.cwv = true → symbolOf s.ver s.ecl = some p → p.t ≤ i.toNat →
    FailsWith (.rdcw i) s 0x08#8) ∧
  ∀ (i : BitVec 16) (s : State) (p : Symbol), s.cwv = true → symbolOf s.ver s.ecl = some p → i.toNat < p.t →
    Reads (.rdcw i) s ((readByte .cw s.cw i.toNat).setWidth 24)

/-- R124; in a state that meets the invariant of R27, `RDGEN 0` answers 1. -/
def Obligations.RdgenAnswersCoefficient : Prop :=
  EncodedAs 0x44#8 0xFF0000#24 (fun arg => .rdgen (arg.extractLsb' 0 16)) ∧
  (∀ (i : BitVec 16) (s : State), s.gendeg.toNat = 0 → FailsWith (.rdgen i) s 0x07#8) ∧
  (∀ (i : BitVec 16) (s : State), 1 ≤ s.gendeg.toNat → s.gendeg.toNat < i.toNat → FailsWith (.rdgen i) s 0x08#8) ∧
  (∀ (i : BitVec 16) (s : State), 1 ≤ s.gendeg.toNat → i.toNat ≤ s.gendeg.toNat → s.gendeg.toNat ≤ 30 →
    Reads (.rdgen i) s ((readByte .gen s.gen i.toNat).setWidth 24)) ∧
  ∀ s : State, Inv s → 1 ≤ s.gendeg.toNat → Reads (.rdgen 0#16) s 1#24

/-- R86 and R125: tag, dark flag and colour of one cell; and the possible values in a state whose flags are truthful. -/
def Obligations.RdmodAnswersCell : Prop :=
  EncodedAs 0x45#8 0xFF0000#24 (fun arg => .rdmod (arg.extractLsb' 0 16)) ∧
  [tagCode .none, tagCode .finder, tagCode .separator, tagCode .timing, tagCode .alignment, tagCode .versionInfo,
    tagCode .formatInfo, tagCode .darkModule] = [0#3, 1#3, 2#3, 3#3, 4#3, 5#3, 6#3, 7#3] ∧
  (∀ (i : BitVec 16) (s : State), s.layv = false → FailsWith (.rdmod i) s 0x07#8) ∧
  (∀ (i : BitVec 16) (s : State) (p : Symbol), s.layv = true → symbolOf s.ver s.ecl = some p →
    p.n * p.n ≤ i.toNat → FailsWith (.rdmod i) s 0x08#8) ∧
  ∀ (i : BitVec 16) (s : State) (p : Symbol), s.layv = true → symbolOf s.ver s.ecl = some p →
    i.toNat < p.n * p.n →
    ∃ v : Val, Reads (.rdmod i) s v ∧
      v.toNat = (tagCode (readTag s.rsvtag i.toNat)).toNat * 4 + (readBit .rsvdark s.rsvdark i.toNat).toNat * 2
        + (readBit .data s.data i.toNat).toNat ∧
      (FlagsTruthful s →
        (v.toNat = 0 ∨ v.toNat = 1) ∨
        ∃ tag : Tag, tag ≠ .none ∧
          (v.toNat = 4 * (tagCode tag).toNat ∨ v.toNat = 4 * (tagCode tag).toNat + 3))

/-! ## Encoding and the step -/

/-- R41 to R44: decoding the word of a command gives the command back, every operand at every value. -/
def Obligations.EncodingIsUndoneByDecoding : Prop :=
  ∀ i : Instr, decode (encode i) = .wellFormed i

/-- R43 to R45: a command has one word: no bit of a well-formed word is ignored. -/
def Obligations.WellFormedWordsAreEncodings : Prop :=
  ∀ (w : Word) (i : Instr), decode w = .wellFormed i → encode i = w

/-- R45: every word is illegal, malformed or well-formed by the columns of R44; the first two answer `E_BADOP` and `E_BADARG`
and change only `FERR`. -/
def Obligations.WordsAreSortedAndRefused : Prop :=
  ∀ (w : Word) (s : State),
    (WellFormed.knownOp w = false →
      runWord w s = .next
        { s with ferr := if s.ferr = 0#8 then 0x01#8 else s.ferr, resp := some 0x01000000#32 }) ∧
    (WellFormed.knownOp w = true → WellFormed.word w = false →
      runWord w s = .next
        { s with ferr := if s.ferr = 0#8 then 0x02#8 else s.ferr, resp := some 0x02000000#32 }) ∧
    (WellFormed.word w = true → ∃ i, decode w = .wellFormed i ∧ runWord w s = exec i s)

/-- Seven words of V-ENC-1, the `GFMUL` word of V-GF-1 (and R58), and one illegal and one malformed word of V-ENC-3, as the
spec writes them out. -/
def Obligations.SpecWordsDecodeAsWritten : Prop :=
  decode 0x02000328#32 = .wellFormed (.cfg 40#6 3#2) ∧
  decode 0x0400000F#32 = .wellFormed (.rdpar 15#8) ∧
  decode 0x1000B40D#32 = .wellFormed (.gfmul 0xB4#8 0x0D#8) ∧
  decode 0x1400000A#32 = .wellFormed (.rsraw 10#8) ∧
  decode 0x20000000#32 = .wellFormed .ilv ∧
  decode 0x3F000000#32 = .wellFormed .run ∧
  decode 0x400000EC#32 = .wellFormed (.pushd 236#8) ∧
  decode 0x45007A60#32 = .wellFormed (.rdmod 31328#16) ∧
  decode 0x05FFFFFF#32 = .illegal ∧
  decode 0x02000440#32 = .malformed

/-- R40: a step takes the word that the host presents next and runs it; one that decodes to a command runs that command.
Nothing is done around it but taking the word from the port. R5, R24: `exec` and `step` are the block at the default
parameters; the same holds of the step under any parameters that pass the check of R73 and R92, and any others are refused
(U15). -/
def Obligations.StepRunsDecodedCommand : Prop :=
  (∀ (s : State) (w : Word) (rest : List HostInput) (i : Instr),
    s.inputs = .command w :: rest → decode w = .wellFormed i → step s = exec i { s with inputs := rest }) ∧
  (∀ (i : Instr) (s : State), execWith defaultParams i s = exec i s) ∧
  (∀ s : State, stepWith defaultParams s = step s) ∧
  (∀ (params : Params) (s : State) (w : Word) (rest : List HostInput) (i : Instr), paramsWellFormed params = true →
    s.inputs = .command w :: rest → decode w = .wellFormed i →
    stepWith params s = execWith params i { s with inputs := rest }) ∧
  ∀ (params : Params) (s : State), paramsWellFormed params = false → stepWith params s = .refused .illFormedParameters

/-- R26 and R150 (the hardware reset as an input is log entry 10): both resets give the reset values; a hardware reset, between
commands or during one, gives no response; `CFG` keeps `GEN`, `GENDEG` and `FERR`. With no input the block is idle (R144). -/
def Obligations.ResetsGiveResetState : Prop :=
  (∀ (s : State) (rest : List HostInput), s.inputs = .reset :: rest →
    ∃ t, step s = .next t ∧ ResetValues t ∧ t.resp = none ∧ t.inputs = rest) ∧
  (∀ (s : State) (w : Word) (rest : List HostInput), s.inputs = .resetDuring w :: rest →
    ∃ t, step s = .next t ∧ ResetValues t ∧ t.resp = none ∧ t.inputs = rest) ∧
  (∀ s : State, ∃ t, CompletesIn .clr s t 0#24 ∧ ResetValues t) ∧
  (∀ (s t : State) (ver : BitVec 6) (ecl : BitVec 2), exec (.cfg ver ecl) s = .next t → statusOf t = 0#8 →
    t.gen = s.gen ∧ t.gendeg = s.gendeg ∧ t.ferr = s.ferr ∧ t.dclen = 0#12 ∧ t.eclen = 0#12 ∧ t.cfgv = true ∧
    t.rawv = false ∧ t.ecv = false ∧ t.cwv = false ∧ t.layv = false ∧ t.plv = false) ∧
  (∀ s : State, s.inputs = [] → step s = .next s)

/-! ## Errors (R15, R135 to R139) -/

/-- R137: whatever the word, it completes with status 0, or it fails and changes nothing but `FERR` (and the response). -/
def Obligations.FailureChangesOnlyFerr : Prop :=
  ∀ (w : Word) (s t : State), runWord w s = .next t →
    (∃ v : Val, t.resp = some (0x00#8 ++ v)) ∨
    ∃ code : Byte, code ≠ 0#8 ∧
      t = { s with ferr := if s.ferr = 0#8 then code else s.ferr, resp := some (code ++ 0#24) }

/-- R40, R136: from every state that meets the invariant, every word is answered with one of the ten statuses: no fault, no
refusal. The same under any well-formed parameters (R5). -/
def Obligations.EveryWordIsAnswered : Prop :=
  (∀ (w : Word) (s : State), Inv s → ∃ t, runWord w s = .next t ∧ t.resp.isSome = true ∧ (statusOf t).toNat ≤ 9) ∧
  ∀ (params : Params) (w : Word) (s : State), paramsWellFormed params = true → InvFor params s →
    ∃ t, runWordWith params w s = .next t ∧ t.resp.isSome = true ∧ (statusOf t).toNat ≤ 9

/-- R139, and `E_BADARG` and `E_BADOP` for the words that are no command. -/
def Obligations.StatusesOfEachCommand : Prop :=
  (∀ (i : Instr) (s t : State), exec i s = .next t → statusOf t ∈ possibleStatuses i) ∧
  (∀ (w : Word) (s t : State), decode w = .malformed → runWord w s = .next t → statusOf t = 0x02#8) ∧
  (∀ (w : Word) (s t : State), decode w = .illegal → runWord w s = .next t → statusOf t = 0x01#8)

/-- R126: the flag table and the counters, on success; nothing of it on an error. -/
def Obligations.FlagTableHolds : Prop :=
  ∀ (i : Instr) (s t : State), exec i s = .next t →
    (statusOf t = 0#8 → (flagTable i).Holds s t ∧ countersAgree i s t) ∧
    (statusOf t ≠ 0#8 → SameButFerr s t)

/-- R15: the first error sticks until `CLR`, and `FERR` never changes what a command does (`RDSTAT` shows it). -/
def Obligations.FirstErrorSticks : Prop :=
  (∀ (w : Word) (s t : State), runWord w s = .next t → decode w ≠ .wellFormed .clr →
    t.ferr = if s.ferr = 0#8 then statusOf t else s.ferr) ∧
  (∀ s t : State, exec .clr s = .next t → t.ferr = 0#8) ∧ (∀ s : State, (hardReset s).ferr = 0#8) ∧
  (∀ (i : Instr) (s t : State) (f : BitVec 8), i ≠ .rdstat → exec i s = .next t →
    ∃ u, exec i { s with ferr := f } = .next u ∧ u.resp = t.resp ∧ SameButFerr t u)

/-! ## Whole-machine rules -/

/-- R39: reads have no side effect and repeat; `PUSHD` appends each time; every other command is idempotent. -/
def Obligations.ReadsAreFreeOthersIdempotent : Prop :=
  (∀ (i : Instr) (s t : State), isRead i = true → exec i s = .next t →
    SameButFerr s t ∧ (statusOf t = 0#8 → t.ferr = s.ferr) ∧ ∀ u, exec i t = .next u → u.resp = t.resp) ∧
  (∀ (b : BitVec 8) (s t u : State), exec (.pushd b) s = .next t → statusOf t = 0#8 →
    exec (.pushd b) t = .next u → statusOf u = 0#8 → u.dclen.toNat = s.dclen.toNat + 2) ∧
  ∀ (i : Instr) (s t : State), Memory.wf s → (∀ b, i ≠ .pushd b) → exec i s = .next t → exec i t = .next t

/-- R11: `VER` and `ECL` are written only by `CFG` and `CLR`. -/
def Obligations.ConfigurationWrittenOnlyByCfg : Prop :=
  ∀ (i : Instr) (s t : State), exec i s = .next t → i ≠ .clr → (∀ v l, i ≠ .cfg v l) → t.ver = s.ver ∧ t.ecl = s.ecl

/-- R18 to R23: a space is changed only by its writers; no command touches what the host has still to present. -/
def Obligations.SpacesHaveTheirWriters : Prop :=
  ∀ (i : Instr) (s t : State), exec i s = .next t →
    (.dc ∉ writtenSpaces i → SameElements s.dc t.dc) ∧
    (.ec ∉ writtenSpaces i → SameElements s.ec t.ec) ∧
    (.cw ∉ writtenSpaces i → SameElements s.cw t.cw) ∧
    (.gen ∉ writtenSpaces i → SameElements s.gen t.gen ∧ t.gendeg = s.gendeg) ∧
    (.data ∉ writtenSpaces i → SameElements s.data t.data) ∧
    (.rsvtag ∉ writtenSpaces i → SameElements s.rsvtag t.rsvtag) ∧
    (.rsvdark ∉ writtenSpaces i → SameElements s.rsvdark t.rsvdark) ∧
    t.inputs = s.inputs

/-- R155: after `PUSHD` the results can no longer be read, but `RDMOD` still answers what it answered before, with `PLV = 0`. -/
def Obligations.PushdLeavesStaleCells : Prop :=
  ∀ (b : BitVec 8) (s t : State), exec (.pushd b) s = .next t → statusOf t = 0#8 →
    t.plv = false ∧ t.layv = s.layv ∧
    (∀ i, FailsWith (.rdec i) t 0x07#8 ∧ FailsWith (.rdcw i) t 0x07#8) ∧
    ∀ (i : BitVec 16) (u : State), exec (.rdmod i) s = .next u →
      ∃ u', exec (.rdmod i) t = .next u' ∧ u'.resp = u.resp

/-- R101 (it reads only `VER`), R112 item 3: the layout does not depend on the level, the data or the codewords, and neither
does the map from stream position to cell. -/
def Obligations.LayoutDependsOnVersionOnly : Prop :=
  (∀ (s s' t t' : State) (p : Symbol), s.ver = s'.ver → symbolOf s.ver s.ecl = some p →
    s.cfgv = true → s'.cfgv = true → exec .layout s = .next t → exec .layout s' = .next t' →
    t.resp = t'.resp ∧
    (∀ i, i < p.n * p.n → bufGet t.data i = bufGet t'.data i ∧ bufGet t.rsvtag i = bufGet t'.rsvtag i ∧
      bufGet t.rsvdark i = bufGet t'.rsvdark i) ∧
    placementCells p.n (readTag t.rsvtag) = placementCells p.n (readTag t'.rsvtag)) ∧
  ∀ (p : Symbol) (tag : Tag) (r c : Nat), layoutCell { p with sepTag := tag } r c ≠ layoutCell p r c →
    layoutCell p r c = ⟨p.sepTag, false⟩ ∧ layoutCell { p with sepTag := tag } r c = ⟨tag, false⟩

/-! ## Invariants (R13, R14, R27) -/

/-- R27: the invariant holds after reset, every step keeps it (under any parameters: `stepWith` answers a next state only for
well-formed ones), and item 8. -/
def Obligations.EveryStepKeepsInvariant : Prop :=
  (∀ xs : List HostInput, Inv { State.reset with inputs := xs }) ∧
  (∀ s t : State, Inv s → step s = .next t → Inv t) ∧
  (∀ (params : Params) (xs : List HostInput), InvFor params { State.reset with inputs := xs }) ∧
  (∀ (params : Params) (s t : State), InvFor params s → stepWith params s = .next t → InvFor params t) ∧
  (∀ (s t : State) (p : Symbol), symbolOf s.ver s.ecl = some p →
    exec .rsblks s = .next t ∨ exec .run s = .next t → statusOf t = 0#8 → t.gendeg.toNat = p.e) ∧
  (∀ (s t : State) (k : BitVec 8), exec (.rsraw k) s = .next t → statusOf t = 0#8 → t.gendeg.toNat = k.toNat) ∧
  (∀ (s t : State) (k : BitVec 8), exec (.genp k) s = .next t → t.rawv = s.rawv ∧ t.ecv = s.ecv)

/-- The reset state has the values of R26 and meets every invariant stated here. -/
def Obligations.ResetMeetsInvariants : Prop :=
  ResetValues State.reset ∧ Inv State.reset ∧ Memory.wf State.reset ∧ WindowsDefined State.reset ∧ FlagsTruthful State.reset

/-- R5, R30: every buffer keeps its canonical form within its capacity. -/
def Obligations.EveryStepKeepsMemoryCanonical : Prop :=
  (∀ s t : State, Memory.wf s → step s = .next t → Memory.wf t) ∧
  ∀ (params : Params) (s t : State), Memory.wf s → stepWith params s = .next t → Memory.wf t

/-- R13: every element inside its window holds a value that a command wrote, so no free value is ever read. -/
def Obligations.EveryStepKeepsWindowsDefined : Prop :=
  (∀ s t : State, Inv s → WindowsDefined s → step s = .next t → WindowsDefined t) ∧
  ∀ (params : Params) (s t : State), InvFor params s → WindowsDefinedFor params s → stepWith params s = .next t →
    WindowsDefinedFor params t

/-- R14: every validity flag that is set tells the truth about the present configuration and data. -/
def Obligations.EveryStepKeepsFlagsTruthful : Prop :=
  (∀ s t : State, Inv s → FlagsTruthful s → step s = .next t → FlagsTruthful t) ∧
  ∀ (params : Params) (s t : State), InvFor params s → FlagsTruthfulFor params s → stepWith params s = .next t →
    FlagsTruthfulFor params t

/-! ## The field and the code (R50 to R57) -/

/-- R51: the laws of the product, over all bytes. -/
def Obligations.GfMulObeysFieldLaws : Prop :=
  (∀ a b : Byte, gfMul a b = gfMul b a) ∧
  (∀ a : Byte, gfMul a 0#8 = 0#8) ∧
  (∀ a : Byte, gfMul a 1#8 = a) ∧
  (∀ a b c : Byte, gfMul a (b ^^^ c) = gfMul a b ^^^ gfMul a c) ∧
  (∀ a b c : Byte, gfMul (gfMul a b) c = gfMul a (gfMul b c)) ∧
  (∀ a : Byte, a ≠ 0#8 → ∃ b, gfMul a b = 1#8 ∧ ∀ b', gfMul a b' = 1#8 → b' = b)

/-- R52: powers of 2: the first, the doubling rule in both forms, the wrap, all distinct, all nonzero bytes. -/
def Obligations.GfExpListsPowersOfTwo : Prop :=
  gfExp 0 = 0x01#8 ∧
  (∀ i, gfExp (i + 1) = gfMul (gfExp i) 0x02#8) ∧
  (∀ i, gfExp (i + 1) = if (gfExp i).getLsbD 7 then (gfExp i <<< 1) ^^^ 0x1D#8 else gfExp i <<< 1) ∧
  gfMul (gfExp 254) 2#8 = 0x01#8 ∧
  (∀ i j, i ≤ 254 → j ≤ 254 → gfExp i = gfExp j → i = j) ∧
  (∀ a : Byte, a ≠ 0#8 → ∃ i, i ≤ 254 ∧ gfExp i = a) ∧
  (∀ i, gfExp i ≠ 0#8)

/-- R53: the logarithm is the one exponent in `0 .. 254`; 0 has none. -/
def Obligations.GfLogInvertsGfExp : Prop :=
  gfLog 0#8 = none ∧
  (∀ i, i ≤ 254 → gfLog (gfExp i) = some i) ∧
  (∀ a : Byte, a ≠ 0#8 → ∃ i, i ≤ 254 ∧ gfLog a = some i ∧ gfExp i = a)

/-- R54: the table form of the product. -/
def Obligations.GfMulEqualsTableForm : Prop :=
  (∀ a b : Byte, a = 0#8 ∨ b = 0#8 → gfMul a b = 0#8) ∧
  (∀ (a b : Byte) (i j : Nat), gfLog a = some i → gfLog b = some j → gfMul a b = gfExp ((i + j) % 255))

/-- R55: the generator of every degree is monic of that degree, `2^0, ..., 2^(k-1)` are its roots, and its constant term is
`gf_exp((k*(k-1)/2) mod 255)`, which is never 0. -/
def Obligations.GenPolyHasTheRoots : Prop :=
  ∀ k : Nat, (genPoly k).length = k + 1 ∧ (genPoly k).head? = some 0x01#8 ∧
    (∀ i, i < k → polyEval (genPoly k) (gfExp i) = 0#8) ∧
    (genPoly k)[k]? = some (gfExp (k * (k - 1) / 2 % 255)) ∧ (genPoly k)[k]? ≠ some 0#8

/-- R57 items 2 to 5. -/
def Obligations.RsEncodeIsLinear : Prop :=
  (∀ (d : List Byte) (k : Nat), (rsEncode d k).length = k) ∧
  (∀ (a b : List Byte) (k : Nat), a.length = b.length →
    rsEncode (xorBytes a b) k = xorBytes (rsEncode a k) (rsEncode b k)) ∧
  (∀ n k : Nat, rsEncode (List.replicate n 0#8) k = List.replicate k 0#8) ∧
  (∀ (d : List Byte) (k : Nat), rsEncode (0#8 :: d) k = rsEncode d k)

/-- R57 item 6: the codeword vanishes at the first `k` powers of 2. -/
def Obligations.CodewordHasZeroSyndromes : Prop :=
  ∀ (d : List Byte) (k i : Nat), i < k → polyEval (d ++ rsEncode d k) (gfExp i) = 0#8

/-! ## Partition, interleaving and tables (R73 to R80, R92) -/

/-- R76: the blocks tile the data codewords, for every symbol whose numbers meet R73 items 1 and 3. -/
def Obligations.BlocksTileTheData : Prop :=
  ∀ p : Symbol, 1 ≤ p.b → p.e ≤ p.t / p.b →
    (∀ j, j < p.b - p.t % p.b → blockLen p j = p.t / p.b - p.e) ∧
    (∀ j, p.b - p.t % p.b ≤ j → blockLen p j = p.t / p.b - p.e + 1) ∧
    blockOff p 0 = 0 ∧ (∀ j, blockOff p (j + 1) = blockOff p j + blockLen p j) ∧
    blockOff p (p.b - 1) + blockLen p (p.b - 1) = p.t - p.b * p.e

/-- R80: `CW` is a permutation of `DC ++ EC`; with one block it is `DC ++ EC`; the data part does not depend on `EC`; the last
row holds the last codeword of each longer block. -/
def Obligations.InterleavingPermutesCodewords : Prop :=
  ∀ (p : Symbol) (dc ec : Nat → Byte), 1 ≤ p.b → p.e ≤ p.t / p.b →
    (interleave p dc ec).length = p.t ∧
    (interleave p dc ec).Perm ((List.range (dataCount p)).map dc ++ (List.range (p.b * p.e)).map ec) ∧
    (p.b = 1 → interleave p dc ec = (List.range (dataCount p)).map dc ++ (List.range p.e).map ec) ∧
    (∀ ec' : Nat → Byte, (interleave p dc ec).take (dataCount p) = (interleave p dc ec').take (dataCount p)) ∧
    (∀ dc' : Nat → Byte, (interleave p dc ec).drop (dataCount p) = (interleave p dc' ec).drop (dataCount p)) ∧
    (∀ x, x < p.t % p.b →
      (interleave p dc ec)[shortLen p * p.b + x]? = some (dc (blockOff p (groupOne p + x) + shortLen p)))

/-- R73, for the default tables (the model's copy of R74, log entry 8) and for any that pass the check: every version and level
has a symbol and its numbers are well-formed. The default tables pass the check, and their `T` and `REM` (R71) are the columns
of R74. -/
def Obligations.BlockTableIsWellFormed : Prop :=
  paramsWellFormed defaultParams = true ∧
  (∀ (ver : BitVec 6) (ecl : BitVec 2) (p : Symbol), symbolOf ver ecl = some p →
    p.e ∈ [7, 10, 13, 15, 16, 17, 18, 20, 22, 24, 26, 28, 30] ∧ codewordColumns[p.ver - 1]? = some (p.t, p.rem)) ∧
  ∀ (params : Params) (ver : BitVec 6) (ecl : BitVec 2), paramsWellFormed params = true →
    ((symbolWith params ver ecl).isSome = true ↔ 1 ≤ ver.toNat ∧ ver.toNat ≤ 40) ∧
    ∀ p, symbolWith params ver ecl = some p →
      p.ver = ver.toNat ∧ p.n = 4 * ver.toNat + 17 ∧ p.rem < 8 ∧ p.sepTag = params.sepTag ∧
      1 ≤ p.b ∧ 7 ≤ p.e ∧ p.e ≤ 30 ∧ 9 ≤ p.t / p.b - p.e ∧ p.e < p.t / p.b ∧
      (∀ j, j < p.b → blockLen p j + p.e ≤ 153) ∧
      1 ≤ p.t - p.b * p.e ∧ p.t - p.b * p.e ≤ 2956 ∧ p.b * p.e ≤ 2430 ∧ p.t ≤ 3706 ∧ 1 ≤ p.b - p.t % p.b

/-- R92, all of it but its last clause (patterns lie on `None` or `Timing` cells), which StagesShareOnlyTimingCells covers, for
any parameters that pass the check. -/
def Obligations.AlignmentTableIsWellFormed : Prop :=
  ∀ (params : Params) (ver : BitVec 6) (ecl : BitVec 2) (p : Symbol), paramsWellFormed params = true →
    symbolWith params ver ecl = some p →
    (ver.toNat = 1 → p.align = []) ∧
    (2 ≤ ver.toNat → p.align.head? = some 6 ∧ p.align.getLast? = some (p.n - 7)) ∧
    p.align.IsChain (fun a b => a + 12 ≤ b) ∧ (∀ a ∈ p.align, a % 2 = 0)

/-! ## The grid (R87 to R109) -/

/-- R87 to R100 and R103: the closed form equals the sequence of writes, later stages overwriting earlier ones, under any
well-formed parameters. -/
def Obligations.LayoutEqualsSequenceOfWrites : Prop :=
  ∀ (params : Params) (ver : BitVec 6) (ecl : BitVec 2) (p : Symbol), paramsWellFormed params = true →
    symbolWith params ver ecl = some p → ∀ r c, r < p.n → c < p.n → lastPut (layoutPuts p) r c = some (layoutCell p r c)

/-- R71 and R102: how many cells of each kind there are; the unreserved ones are `8*T + REM`. -/
def Obligations.CellsOfEachTag : Prop :=
  ∀ (ver : BitVec 6) (ecl : BitVec 2) (p : Symbol), symbolOf ver ecl = some p →
    tagCount p .none = 8 * p.t + p.rem ∧ p.rem < 8 ∧
    tagCount p .finder = 147 ∧ tagCount p .separator = 45 ∧ tagCount p .formatInfo = 30 ∧
    tagCount p .darkModule = 1 ∧ tagCount p .versionInfo = (if 7 ≤ ver.toNat then 36 else 0) ∧
    tagCount p .alignment = 25 * (p.align.length * p.align.length - 3) ∧
    tagCount p .timing = 2 * (p.n - 16) - 5 * (2 * (p.align.length - 2))

/-- R87, R92, under any well-formed parameters: no two stages write one cell, but that an alignment pattern may cover timing
cells, and then with the same colour (R93); with the default tables that is so from version 7. The stages are finder, separator,
timing, alignment, version information, format placeholder, dark module. -/
def Obligations.StagesShareOnlyTimingCells : Prop :=
  ∀ (params : Params) (ver : BitVec 6) (ecl : BitVec 2) (p : Symbol), paramsWellFormed params = true →
    symbolWith params ver ecl = some p → ∀ r c, r < p.n → c < p.n → ∀ (i j : Nat) (a b : Mark), i < j →
      [finderCell p.n r c, separatorCell p.sepTag p.n r c, timingCell p.n r c, alignmentCell p.align r c,
        versionCell p.ver p.n r c, formatCell p.n r c, darkModuleCell p.n r c][i]? = some (some a) →
      [finderCell p.n r c, separatorCell p.sepTag p.n r c, timingCell p.n r c, alignmentCell p.align r c,
        versionCell p.ver p.n r c, formatCell p.n r c, darkModuleCell p.n r c][j]? = some (some b) →
      i = 2 ∧ j = 3 ∧ a.dark = b.dark ∧ (r = 6 ∨ c = 6) ∧ 3 ≤ p.align.length ∧
        (params = defaultParams → 7 ≤ ver.toNat)

/-- R94, R96: the 34 version words. -/
def Obligations.VersionWordsMatchTable : Prop :=
  (List.range 34).map (fun i => versionWord (7 + i)) =
    [0x07C94#18, 0x085BC#18, 0x09A99#18, 0x0A4D3#18, 0x0BBF6#18, 0x0C762#18, 0x0D847#18, 0x0E60D#18, 0x0F928#18]
    ++ [0x10B78#18, 0x1145D#18, 0x12A17#18, 0x13532#18, 0x149A6#18, 0x15683#18, 0x168C9#18, 0x177EC#18, 0x18EC4#18]
    ++ [0x191E1#18, 0x1AFAB#18, 0x1B08E#18, 0x1CC1A#18, 0x1D33F#18, 0x1ED75#18, 0x1F250#18, 0x209D5#18, 0x216F0#18]
    ++ [0x228BA#18, 0x2379F#18, 0x24B0B#18, 0x2542E#18, 0x26A64#18, 0x27541#18, 0x28C69#18]

/-- R106: the walk visits every cell of every column but column 6, once. -/
def Obligations.WalkVisitsEachCellOnce : Prop :=
  ∀ v : Nat, (visitOrder (4 * v + 17)).Nodup ∧
    (∀ r c, (r, c) ∈ visitOrder (4 * v + 17) ↔ r < 4 * v + 17 ∧ c < 4 * v + 17 ∧ c ≠ 6) ∧
    (visitOrder (4 * v + 17)).length = (4 * v + 17) * (4 * v + 16)

/-- R109, R112 item 1: after `LAYOUT` the walk reaches every unreserved cell, so `PLACE` writes all `U(VER) = 8*T + REM` of
them and no codeword bit is left over. -/
def Obligations.PlacementCoversUnreservedCells : Prop :=
  ∀ (ver : BitVec 6) (ecl : BitVec 2) (p : Symbol), symbolOf ver ecl = some p →
    let tagAt := fun i => (layoutCell p (i / p.n) (i % p.n)).tag
    (placementCells p.n tagAt).Nodup ∧ (placementCells p.n tagAt).length = 8 * p.t + p.rem ∧
    p.rem ∈ [0, 3, 4, 7] ∧
    ∀ i, i ∈ placementCells p.n tagAt ↔ i < p.n * p.n ∧ tagAt i = .none

/-- R107: the one-cell machine makes exactly `N*(N-1)` steps, stops, and leaves the same colours and the same count. -/
def Obligations.FillerMachineAgrees : Prop :=
  ∀ (v : Nat) (tagAt : Nat → Tag) (bit : Nat → Bool) (data : Buffer Bool),
    let n := 4 * v + 17
    let f := fillerRun n tagAt bit (n * (n - 1)) (fillerInit n data)
    f.data = placeBits bit (placementCells n tagAt) 0 data ∧ f.k = (placementCells n tagAt).length ∧ f.col < 1 ∧
    ∀ m, m < n * (n - 1) → 1 ≤ (fillerRun n tagAt bit m (fillerInit n data)).col
end

