-- ==== Sys2Proof/Laws/Memory.lean ====
section
/-! SUPPORT. What the buffer operations do: reading after writing, and that every operation keeps the canonical form. -/

namespace Sys2Proof.Machine

variable {α : Type}

@[simp] theorem bufGet_nil (i : Nat) : bufGet ([] : Buffer α) i = none := rfl

theorem bufGet_append (b c : Buffer α) (i : Nat) : bufGet (b ++ c) i = (bufGet b i).or (bufGet c i) := by
  induction b with
  | nil => simp
  | cons x b ih =>
    obtain ⟨j, v⟩ := x
    by_cases h : j = i <;> simp [bufGet, h, ih]

/-- An element is read from the part of a buffer that a test on indices keeps, if it passes the test. -/
theorem bufGet_filter (b : Buffer α) (q : Nat → Bool) (i : Nat) :
    bufGet (b.filter fun x => q x.1) i = if q i then bufGet b i else none := by
  induction b with
  | nil => simp
  | cons x b ih =>
    obtain ⟨j, v⟩ := x
    by_cases hq : q j = true
    · by_cases h : j = i
      · subst h; simp [bufGet, hq]
      · simp [bufGet, hq, h, ih]
    · by_cases h : j = i
      · subst h; simp [hq, ih]
      · simp [bufGet, hq, h, ih]

theorem bufGet_numbered (base : Nat) (vs : List α) (i : Nat) :
    bufGet (numbered base vs) i = if base ≤ i then vs[i - base]? else none := by
  induction vs generalizing base with
  | nil => simp [numbered]
  | cons v vs ih =>
    rcases Nat.lt_trichotomy base i with h | rfl | h
    · obtain ⟨d, rfl⟩ : ∃ d, i = base + d + 1 := ⟨i - base - 1, by omega⟩
      have h1 : base + d + 1 - (base + 1) = d := by omega
      have h2 : base + d + 1 - base = d + 1 := by omega
      have h3 : base ≠ base + d + 1 := by omega
      have h4 : base + 1 ≤ base + d + 1 := by omega
      have h5 : base ≤ base + d + 1 := by omega
      simp [numbered, bufGet, ih, h1, h2, h3, h4, h5]
    · simp [numbered, bufGet]
    · have h3 : base ≠ i := by omega
      have h4 : ¬ base + 1 ≤ i := by omega
      have h5 : ¬ base ≤ i := by omega
      simp [numbered, bufGet, ih, h3, h4, h5]

/-- Writing one element: it reads as written, every other element as before. -/
theorem bufGet_bufSet (b : Buffer α) (i j : Nat) (v : α) :
    bufGet (bufSet b i v) j = if j = i then some v else bufGet b j := by
  induction b with
  | nil =>
    by_cases h : i = j
    · simp [bufSet, bufGet, h]
    · simp [bufSet, bufGet, h, Ne.symm h]
  | cons x b ih =>
    obtain ⟨k, w⟩ := x
    unfold bufSet
    split
    · rename_i hk
      by_cases hkj : k = j
      · have : j ≠ i := by omega
        simp [bufGet, hkj, this]
      · simp [bufGet, hkj, ih]
    · split
      · rename_i _ hk
        subst hk
        by_cases h : k = j
        · simp [bufGet, h]
        · simp [bufGet, h, Ne.symm h]
      · by_cases h : i = j
        · simp [bufGet, h]
        · simp [bufGet, h, Ne.symm h]

/-- Writing a run of elements: inside it each reads as written, outside it as before. -/
theorem bufGet_bufWrite (b : Buffer α) (base : Nat) (vs : List α) (i : Nat) :
    bufGet (bufWrite b base vs) i = if base ≤ i ∧ i < base + vs.length then vs[i - base]? else bufGet b i := by
  unfold bufWrite
  rw [bufGet_append, bufGet_append, bufGet_filter b (fun k => decide (k < base)),
    bufGet_filter b (fun k => decide (base + vs.length ≤ k)), bufGet_numbered]
  rcases Nat.lt_or_ge i base with h | h
  · have h1 : ¬ base ≤ i := by omega
    have h2 : ¬ base + vs.length ≤ i := by omega
    simp [h, h1, h2]
  · have h0 : ¬ i < base := by omega
    rcases Nat.lt_or_ge i (base + vs.length) with h' | h'
    · have h2 : ¬ base + vs.length ≤ i := by omega
      simp [h, h0, h', h2]
    · have h3 : ¬ i < base + vs.length := by omega
      have h4 : vs.length ≤ i - base := by omega
      simp [h, h0, h', h3, h4]

theorem mem_numbered_bounds (base : Nat) (vs : List α) (x : Nat × α) (h : x ∈ numbered base vs) :
    base ≤ x.1 ∧ x.1 < base + vs.length := by
  induction vs generalizing base with
  | nil => simp [numbered] at h
  | cons v vs ih =>
    rcases List.mem_cons.1 (by simpa [numbered] using h) with rfl | h
    · simp
    · have := ih (base + 1) h
      simp only [List.length_cons]
      omega

theorem numbered_canonical (base : Nat) (vs : List α) : bufCanonical (numbered base vs) := by
  induction vs generalizing base with
  | nil => simp [numbered, bufCanonical]
  | cons v vs ih =>
    refine List.pairwise_cons.2 ⟨fun x hx => ?_, ih (base + 1)⟩
    have := (mem_numbered_bounds (base + 1) vs x hx).1
    simp only
    omega

theorem mem_bufSet (b : Buffer α) (i : Nat) (v : α) (x : Nat × α) (h : x ∈ bufSet b i v) :
    x = (i, v) ∨ x ∈ b := by
  induction b with
  | nil => simpa [bufSet] using h
  | cons y b ih =>
    obtain ⟨k, w⟩ := y
    unfold bufSet at h
    split at h
    · rcases List.mem_cons.1 h with rfl | h
      · simp
      · rcases ih h with h | h <;> simp [h]
    · split at h <;> simp only [List.mem_cons] at h ⊢ <;> tauto

/-- Writing one element keeps the canonical form. -/
theorem bufSet_canonical (b : Buffer α) (i : Nat) (v : α) (h : bufCanonical b) :
    bufCanonical (bufSet b i v) := by
  induction b with
  | nil => simp [bufSet, bufCanonical]
  | cons y b ih =>
    obtain ⟨k, w⟩ := y
    obtain ⟨hk, hb⟩ := List.pairwise_cons.1 h
    unfold bufSet
    split
    · rename_i hki
      refine List.pairwise_cons.2 ⟨fun x hx => ?_, ih hb⟩
      rcases mem_bufSet b i v x hx with rfl | hx
      · exact hki
      · exact hk x hx
    · split
      · rename_i _ hki
        subst hki
        exact List.pairwise_cons.2 ⟨hk, hb⟩
      · rename_i h1 h2
        have h3 : i < k := by omega
        refine List.pairwise_cons.2 ⟨fun x hx => ?_, h⟩
        rcases List.mem_cons.1 hx with rfl | hx
        · exact h3
        · exact Nat.lt_trans h3 (hk x hx)

/-- Writing a run of elements keeps the canonical form. -/
theorem bufWrite_canonical (b : Buffer α) (base : Nat) (vs : List α) (h : bufCanonical b) :
    bufCanonical (bufWrite b base vs) := by
  unfold bufWrite bufCanonical
  refine List.pairwise_append.2 ⟨List.pairwise_append.2 ⟨h.filter _, numbered_canonical base vs, ?_⟩,
    h.filter _, ?_⟩
  · intro x hx y hy
    have h1 : x.1 < base := by simpa using (List.mem_filter.1 hx).2
    have h2 := (mem_numbered_bounds base vs y hy).1
    omega
  · intro x hx y hy
    have h2 : base + vs.length ≤ y.1 := by simpa using (List.mem_filter.1 hy).2
    rcases List.mem_append.1 hx with hx | hx
    · have h1 : x.1 < base := by simpa using (List.mem_filter.1 hx).2
      omega
    · have h1 := (mem_numbered_bounds base vs x hx).2
      omega

theorem bufSet_within (cap : Nat) (b : Buffer α) (i : Nat) (v : α) (hi : i < cap) (h : bufWithin cap b) :
    bufWithin cap (bufSet b i v) := by
  intro x hx
  rcases mem_bufSet b i v x hx with rfl | hx
  · exact hi
  · exact h x hx

theorem numbered_within (cap base : Nat) (vs : List α) (hv : base + vs.length ≤ cap) :
    bufWithin cap (numbered base vs) := by
  intro x hx
  have := (mem_numbered_bounds base vs x hx).2
  omega

theorem bufWrite_within (cap : Nat) (b : Buffer α) (base : Nat) (vs : List α) (hv : base + vs.length ≤ cap)
    (h : bufWithin cap b) : bufWithin cap (bufWrite b base vs) := by
  intro x hx
  rcases List.mem_append.1 hx with hx | hx
  · rcases List.mem_append.1 hx with hx | hx
    · exact h x (List.mem_filter.1 hx).1
    · exact numbered_within cap base vs hv x hx
  · exact h x (List.mem_filter.1 hx).1

/-- Placing a list of bits keeps the canonical form. -/
theorem placeBits_canonical (bit : Nat → Bool) (cells : List Nat) (k : Nat) (data : Buffer Bool)
    (h : bufCanonical data) : bufCanonical (placeBits bit cells k data) := by
  induction cells generalizing k data with
  | nil => exact h
  | cons i rest ih => exact ih (k + 1) _ (bufSet_canonical data i (bit k) h)

/-- Placing bits leaves every cell that is not in the list as it was. -/
theorem bufGet_placeBits_of_notMem (bit : Nat → Bool) (cells : List Nat) (k : Nat) (data : Buffer Bool) (i : Nat)
    (h : i ∉ cells) : bufGet (placeBits bit cells k data) i = bufGet data i := by
  induction cells generalizing k data with
  | nil => rfl
  | cons j rest ih =>
    have hij : i ≠ j := fun e => h (by simp [e])
    rw [placeBits, ih (k + 1) _ (fun hm => h (by simp [hm])), bufGet_bufSet, if_neg hij]

@[simp] theorem readRun_length (sp : Space) (b : Buffer Byte) (base n : Nat) : (readRun sp b base n).length = n := by
  simp [readRun]

/-- The reset memory has the canonical form: it lists nothing. -/
theorem reset_memory_wf : Memory.wf State.reset := by decide

end Sys2Proof.Machine
end

