-- ==== Sys2Proof/Laws/Grid.lean ====
section
/-! SUPPORT. What `layoutState` leaves in the three grid spaces, cell by cell. -/

namespace Sys2Proof.Machine

theorem layoutMarks_length (p : Symbol) : (layoutMarks p).length = p.n * p.n := by simp [layoutMarks]

/-- A cell of the grid has an index below `N*N`. -/
theorem cell_index_lt {n r c : Nat} (hr : r < n) (hc : c < n) : r * n + c < n * n :=
  calc r * n + c < r * n + n := by omega
    _ = (r + 1) * n := by rw [Nat.succ_mul]
    _ ≤ n * n := Nat.mul_le_mul_right n hr

/-- The mark at the index of cell `(r, c)` (R31). -/
theorem layoutMarks_cell (p : Symbol) (r c : Nat) (hr : r < p.n) (hc : c < p.n) :
    (layoutMarks p)[r * p.n + c]? = some (layoutCell p r c) := by
  have h1 : (r * p.n + c) / p.n = r := by
    rw [Nat.add_comm, Nat.mul_comm, Nat.add_mul_div_left _ _ (by omega), Nat.div_eq_of_lt hc, Nat.zero_add]
  have h2 : (r * p.n + c) % p.n = c := by
    rw [Nat.add_comm, Nat.mul_comm, Nat.add_mul_mod_self_left, Nat.mod_eq_of_lt hc]
  simp [layoutMarks, List.getElem?_range (cell_index_lt hr hc), h1, h2]

/-- Writing one value for each mark of the layout: what the cell then holds. -/
theorem bufGet_write_marks {α : Type} (p : Symbol) (f : Mark → α) (b : Buffer α) (r c : Nat) (hr : r < p.n) (hc : c < p.n) :
    bufGet (bufWrite b 0 ((layoutMarks p).map f)) (r * p.n + c) = some (f (layoutCell p r c)) := by
  rw [bufGet_bufWrite, if_pos ⟨by omega, by simpa [layoutMarks_length] using cell_index_lt hr hc⟩, List.getElem?_map,
    Nat.sub_zero, layoutMarks_cell p r c hr hc, Option.map_some]

/-- Writing one value for each mark of the layout leaves every index from `N*N` on as it was. -/
theorem bufGet_write_marks_outside {α : Type} (p : Symbol) (f : Mark → α) (b : Buffer α) (i : Nat) (h : p.n * p.n ≤ i) :
    bufGet (bufWrite b 0 ((layoutMarks p).map f)) i = bufGet b i := by
  rw [bufGet_bufWrite]
  simp [layoutMarks_length, Nat.not_lt.2 h]

end Sys2Proof.Machine
end

