-- ==== Sys2Proof/Laws/State.lean ====
section
/-! SUPPORT. One lemma for each field of the state and each named update: what the update leaves in the field. Later proofs cite
these through simp and never unfold a record update. -/

namespace Sys2Proof.Machine

/-! `withResp` -/

@[simp] theorem withResp_ver (w : Word) (s : State) : (withResp w s).ver = s.ver := rfl
@[simp] theorem withResp_ecl (w : Word) (s : State) : (withResp w s).ecl = s.ecl := rfl
@[simp] theorem withResp_dclen (w : Word) (s : State) : (withResp w s).dclen = s.dclen := rfl
@[simp] theorem withResp_eclen (w : Word) (s : State) : (withResp w s).eclen = s.eclen := rfl
@[simp] theorem withResp_gendeg (w : Word) (s : State) : (withResp w s).gendeg = s.gendeg := rfl
@[simp] theorem withResp_cfgv (w : Word) (s : State) : (withResp w s).cfgv = s.cfgv := rfl
@[simp] theorem withResp_rawv (w : Word) (s : State) : (withResp w s).rawv = s.rawv := rfl
@[simp] theorem withResp_ecv (w : Word) (s : State) : (withResp w s).ecv = s.ecv := rfl
@[simp] theorem withResp_cwv (w : Word) (s : State) : (withResp w s).cwv = s.cwv := rfl
@[simp] theorem withResp_layv (w : Word) (s : State) : (withResp w s).layv = s.layv := rfl
@[simp] theorem withResp_plv (w : Word) (s : State) : (withResp w s).plv = s.plv := rfl
@[simp] theorem withResp_ferr (w : Word) (s : State) : (withResp w s).ferr = s.ferr := rfl
@[simp] theorem withResp_gen (w : Word) (s : State) : (withResp w s).gen = s.gen := rfl
@[simp] theorem withResp_dc (w : Word) (s : State) : (withResp w s).dc = s.dc := rfl
@[simp] theorem withResp_ec (w : Word) (s : State) : (withResp w s).ec = s.ec := rfl
@[simp] theorem withResp_cw (w : Word) (s : State) : (withResp w s).cw = s.cw := rfl
@[simp] theorem withResp_data (w : Word) (s : State) : (withResp w s).data = s.data := rfl
@[simp] theorem withResp_rsvtag (w : Word) (s : State) : (withResp w s).rsvtag = s.rsvtag := rfl
@[simp] theorem withResp_rsvdark (w : Word) (s : State) : (withResp w s).rsvdark = s.rsvdark := rfl
@[simp] theorem withResp_inputs (w : Word) (s : State) : (withResp w s).inputs = s.inputs := rfl
@[simp] theorem withResp_resp (w : Word) (s : State) : (withResp w s).resp = some w := rfl

/-! `recordError` -/

@[simp] theorem recordError_ver (code : Status) (s : State) : (recordError code s).ver = s.ver := rfl
@[simp] theorem recordError_ecl (code : Status) (s : State) : (recordError code s).ecl = s.ecl := rfl
@[simp] theorem recordError_dclen (code : Status) (s : State) : (recordError code s).dclen = s.dclen := rfl
@[simp] theorem recordError_eclen (code : Status) (s : State) : (recordError code s).eclen = s.eclen := rfl
@[simp] theorem recordError_gendeg (code : Status) (s : State) : (recordError code s).gendeg = s.gendeg := rfl
@[simp] theorem recordError_cfgv (code : Status) (s : State) : (recordError code s).cfgv = s.cfgv := rfl
@[simp] theorem recordError_rawv (code : Status) (s : State) : (recordError code s).rawv = s.rawv := rfl
@[simp] theorem recordError_ecv (code : Status) (s : State) : (recordError code s).ecv = s.ecv := rfl
@[simp] theorem recordError_cwv (code : Status) (s : State) : (recordError code s).cwv = s.cwv := rfl
@[simp] theorem recordError_layv (code : Status) (s : State) : (recordError code s).layv = s.layv := rfl
@[simp] theorem recordError_plv (code : Status) (s : State) : (recordError code s).plv = s.plv := rfl
@[simp] theorem recordError_ferr (code : Status) (s : State) :
    (recordError code s).ferr = if s.ferr = 0#8 then statusCode code else s.ferr := rfl
@[simp] theorem recordError_gen (code : Status) (s : State) : (recordError code s).gen = s.gen := rfl
@[simp] theorem recordError_dc (code : Status) (s : State) : (recordError code s).dc = s.dc := rfl
@[simp] theorem recordError_ec (code : Status) (s : State) : (recordError code s).ec = s.ec := rfl
@[simp] theorem recordError_cw (code : Status) (s : State) : (recordError code s).cw = s.cw := rfl
@[simp] theorem recordError_data (code : Status) (s : State) : (recordError code s).data = s.data := rfl
@[simp] theorem recordError_rsvtag (code : Status) (s : State) : (recordError code s).rsvtag = s.rsvtag := rfl
@[simp] theorem recordError_rsvdark (code : Status) (s : State) : (recordError code s).rsvdark = s.rsvdark := rfl
@[simp] theorem recordError_inputs (code : Status) (s : State) : (recordError code s).inputs = s.inputs := rfl
@[simp] theorem recordError_resp (code : Status) (s : State) : (recordError code s).resp = s.resp := rfl

/-! `failState` -/

@[simp] theorem failState_ver (code : Status) (s : State) : (failState code s).ver = s.ver := rfl
@[simp] theorem failState_ecl (code : Status) (s : State) : (failState code s).ecl = s.ecl := rfl
@[simp] theorem failState_dclen (code : Status) (s : State) : (failState code s).dclen = s.dclen := rfl
@[simp] theorem failState_eclen (code : Status) (s : State) : (failState code s).eclen = s.eclen := rfl
@[simp] theorem failState_gendeg (code : Status) (s : State) : (failState code s).gendeg = s.gendeg := rfl
@[simp] theorem failState_cfgv (code : Status) (s : State) : (failState code s).cfgv = s.cfgv := rfl
@[simp] theorem failState_rawv (code : Status) (s : State) : (failState code s).rawv = s.rawv := rfl
@[simp] theorem failState_ecv (code : Status) (s : State) : (failState code s).ecv = s.ecv := rfl
@[simp] theorem failState_cwv (code : Status) (s : State) : (failState code s).cwv = s.cwv := rfl
@[simp] theorem failState_layv (code : Status) (s : State) : (failState code s).layv = s.layv := rfl
@[simp] theorem failState_plv (code : Status) (s : State) : (failState code s).plv = s.plv := rfl
@[simp] theorem failState_ferr (code : Status) (s : State) :
    (failState code s).ferr = if s.ferr = 0#8 then statusCode code else s.ferr := rfl
@[simp] theorem failState_gen (code : Status) (s : State) : (failState code s).gen = s.gen := rfl
@[simp] theorem failState_dc (code : Status) (s : State) : (failState code s).dc = s.dc := rfl
@[simp] theorem failState_ec (code : Status) (s : State) : (failState code s).ec = s.ec := rfl
@[simp] theorem failState_cw (code : Status) (s : State) : (failState code s).cw = s.cw := rfl
@[simp] theorem failState_data (code : Status) (s : State) : (failState code s).data = s.data := rfl
@[simp] theorem failState_rsvtag (code : Status) (s : State) : (failState code s).rsvtag = s.rsvtag := rfl
@[simp] theorem failState_rsvdark (code : Status) (s : State) : (failState code s).rsvdark = s.rsvdark := rfl
@[simp] theorem failState_inputs (code : Status) (s : State) : (failState code s).inputs = s.inputs := rfl
@[simp] theorem failState_resp (code : Status) (s : State) : (failState code s).resp = some (responseWord code 0#24) := rfl

/-! `clearState` -/

@[simp] theorem clearState_ver (s : State) : (clearState s).ver = 0#6 := rfl
@[simp] theorem clearState_ecl (s : State) : (clearState s).ecl = 0#2 := rfl
@[simp] theorem clearState_dclen (s : State) : (clearState s).dclen = 0#12 := rfl
@[simp] theorem clearState_eclen (s : State) : (clearState s).eclen = 0#12 := rfl
@[simp] theorem clearState_gendeg (s : State) : (clearState s).gendeg = 0#5 := rfl
@[simp] theorem clearState_cfgv (s : State) : (clearState s).cfgv = false := rfl
@[simp] theorem clearState_rawv (s : State) : (clearState s).rawv = false := rfl
@[simp] theorem clearState_ecv (s : State) : (clearState s).ecv = false := rfl
@[simp] theorem clearState_cwv (s : State) : (clearState s).cwv = false := rfl
@[simp] theorem clearState_layv (s : State) : (clearState s).layv = false := rfl
@[simp] theorem clearState_plv (s : State) : (clearState s).plv = false := rfl
@[simp] theorem clearState_ferr (s : State) : (clearState s).ferr = 0#8 := rfl
@[simp] theorem clearState_gen (s : State) : (clearState s).gen = [] := rfl
@[simp] theorem clearState_dc (s : State) : (clearState s).dc = [] := rfl
@[simp] theorem clearState_ec (s : State) : (clearState s).ec = [] := rfl
@[simp] theorem clearState_cw (s : State) : (clearState s).cw = [] := rfl
@[simp] theorem clearState_data (s : State) : (clearState s).data = [] := rfl
@[simp] theorem clearState_rsvtag (s : State) : (clearState s).rsvtag = [] := rfl
@[simp] theorem clearState_rsvdark (s : State) : (clearState s).rsvdark = [] := rfl
@[simp] theorem clearState_inputs (s : State) : (clearState s).inputs = s.inputs := rfl
@[simp] theorem clearState_resp (s : State) : (clearState s).resp = none := rfl

/-! `present` -/

@[simp] theorem present_ver (w : Word) (s : State) : (present w s).ver = s.ver := rfl
@[simp] theorem present_ecl (w : Word) (s : State) : (present w s).ecl = s.ecl := rfl
@[simp] theorem present_dclen (w : Word) (s : State) : (present w s).dclen = s.dclen := rfl
@[simp] theorem present_eclen (w : Word) (s : State) : (present w s).eclen = s.eclen := rfl
@[simp] theorem present_gendeg (w : Word) (s : State) : (present w s).gendeg = s.gendeg := rfl
@[simp] theorem present_cfgv (w : Word) (s : State) : (present w s).cfgv = s.cfgv := rfl
@[simp] theorem present_rawv (w : Word) (s : State) : (present w s).rawv = s.rawv := rfl
@[simp] theorem present_ecv (w : Word) (s : State) : (present w s).ecv = s.ecv := rfl
@[simp] theorem present_cwv (w : Word) (s : State) : (present w s).cwv = s.cwv := rfl
@[simp] theorem present_layv (w : Word) (s : State) : (present w s).layv = s.layv := rfl
@[simp] theorem present_plv (w : Word) (s : State) : (present w s).plv = s.plv := rfl
@[simp] theorem present_ferr (w : Word) (s : State) : (present w s).ferr = s.ferr := rfl
@[simp] theorem present_gen (w : Word) (s : State) : (present w s).gen = s.gen := rfl
@[simp] theorem present_dc (w : Word) (s : State) : (present w s).dc = s.dc := rfl
@[simp] theorem present_ec (w : Word) (s : State) : (present w s).ec = s.ec := rfl
@[simp] theorem present_cw (w : Word) (s : State) : (present w s).cw = s.cw := rfl
@[simp] theorem present_data (w : Word) (s : State) : (present w s).data = s.data := rfl
@[simp] theorem present_rsvtag (w : Word) (s : State) : (present w s).rsvtag = s.rsvtag := rfl
@[simp] theorem present_rsvdark (w : Word) (s : State) : (present w s).rsvdark = s.rsvdark := rfl
@[simp] theorem present_inputs (w : Word) (s : State) : (present w s).inputs = .command w :: s.inputs := rfl
@[simp] theorem present_resp (w : Word) (s : State) : (present w s).resp = s.resp := rfl

/-! `flagsAfterCfg` -/

@[simp] theorem flagsAfterCfg_ver (s : State) : (flagsAfterCfg s).ver = s.ver := rfl
@[simp] theorem flagsAfterCfg_ecl (s : State) : (flagsAfterCfg s).ecl = s.ecl := rfl
@[simp] theorem flagsAfterCfg_dclen (s : State) : (flagsAfterCfg s).dclen = s.dclen := rfl
@[simp] theorem flagsAfterCfg_eclen (s : State) : (flagsAfterCfg s).eclen = s.eclen := rfl
@[simp] theorem flagsAfterCfg_gendeg (s : State) : (flagsAfterCfg s).gendeg = s.gendeg := rfl
@[simp] theorem flagsAfterCfg_cfgv (s : State) : (flagsAfterCfg s).cfgv = true := rfl
@[simp] theorem flagsAfterCfg_rawv (s : State) : (flagsAfterCfg s).rawv = false := rfl
@[simp] theorem flagsAfterCfg_ecv (s : State) : (flagsAfterCfg s).ecv = false := rfl
@[simp] theorem flagsAfterCfg_cwv (s : State) : (flagsAfterCfg s).cwv = false := rfl
@[simp] theorem flagsAfterCfg_layv (s : State) : (flagsAfterCfg s).layv = false := rfl
@[simp] theorem flagsAfterCfg_plv (s : State) : (flagsAfterCfg s).plv = false := rfl
@[simp] theorem flagsAfterCfg_ferr (s : State) : (flagsAfterCfg s).ferr = s.ferr := rfl
@[simp] theorem flagsAfterCfg_gen (s : State) : (flagsAfterCfg s).gen = s.gen := rfl
@[simp] theorem flagsAfterCfg_dc (s : State) : (flagsAfterCfg s).dc = s.dc := rfl
@[simp] theorem flagsAfterCfg_ec (s : State) : (flagsAfterCfg s).ec = s.ec := rfl
@[simp] theorem flagsAfterCfg_cw (s : State) : (flagsAfterCfg s).cw = s.cw := rfl
@[simp] theorem flagsAfterCfg_data (s : State) : (flagsAfterCfg s).data = s.data := rfl
@[simp] theorem flagsAfterCfg_rsvtag (s : State) : (flagsAfterCfg s).rsvtag = s.rsvtag := rfl
@[simp] theorem flagsAfterCfg_rsvdark (s : State) : (flagsAfterCfg s).rsvdark = s.rsvdark := rfl
@[simp] theorem flagsAfterCfg_inputs (s : State) : (flagsAfterCfg s).inputs = s.inputs := rfl
@[simp] theorem flagsAfterCfg_resp (s : State) : (flagsAfterCfg s).resp = s.resp := rfl

/-! `flagsAfterPush` -/

@[simp] theorem flagsAfterPush_ver (s : State) : (flagsAfterPush s).ver = s.ver := rfl
@[simp] theorem flagsAfterPush_ecl (s : State) : (flagsAfterPush s).ecl = s.ecl := rfl
@[simp] theorem flagsAfterPush_dclen (s : State) : (flagsAfterPush s).dclen = s.dclen := rfl
@[simp] theorem flagsAfterPush_eclen (s : State) : (flagsAfterPush s).eclen = s.eclen := rfl
@[simp] theorem flagsAfterPush_gendeg (s : State) : (flagsAfterPush s).gendeg = s.gendeg := rfl
@[simp] theorem flagsAfterPush_cfgv (s : State) : (flagsAfterPush s).cfgv = s.cfgv := rfl
@[simp] theorem flagsAfterPush_rawv (s : State) : (flagsAfterPush s).rawv = false := rfl
@[simp] theorem flagsAfterPush_ecv (s : State) : (flagsAfterPush s).ecv = false := rfl
@[simp] theorem flagsAfterPush_cwv (s : State) : (flagsAfterPush s).cwv = false := rfl
@[simp] theorem flagsAfterPush_layv (s : State) : (flagsAfterPush s).layv = s.layv := rfl
@[simp] theorem flagsAfterPush_plv (s : State) : (flagsAfterPush s).plv = false := rfl
@[simp] theorem flagsAfterPush_ferr (s : State) : (flagsAfterPush s).ferr = s.ferr := rfl
@[simp] theorem flagsAfterPush_gen (s : State) : (flagsAfterPush s).gen = s.gen := rfl
@[simp] theorem flagsAfterPush_dc (s : State) : (flagsAfterPush s).dc = s.dc := rfl
@[simp] theorem flagsAfterPush_ec (s : State) : (flagsAfterPush s).ec = s.ec := rfl
@[simp] theorem flagsAfterPush_cw (s : State) : (flagsAfterPush s).cw = s.cw := rfl
@[simp] theorem flagsAfterPush_data (s : State) : (flagsAfterPush s).data = s.data := rfl
@[simp] theorem flagsAfterPush_rsvtag (s : State) : (flagsAfterPush s).rsvtag = s.rsvtag := rfl
@[simp] theorem flagsAfterPush_rsvdark (s : State) : (flagsAfterPush s).rsvdark = s.rsvdark := rfl
@[simp] theorem flagsAfterPush_inputs (s : State) : (flagsAfterPush s).inputs = s.inputs := rfl
@[simp] theorem flagsAfterPush_resp (s : State) : (flagsAfterPush s).resp = s.resp := rfl

/-! `flagsAfterRaw` -/

@[simp] theorem flagsAfterRaw_ver (s : State) : (flagsAfterRaw s).ver = s.ver := rfl
@[simp] theorem flagsAfterRaw_ecl (s : State) : (flagsAfterRaw s).ecl = s.ecl := rfl
@[simp] theorem flagsAfterRaw_dclen (s : State) : (flagsAfterRaw s).dclen = s.dclen := rfl
@[simp] theorem flagsAfterRaw_eclen (s : State) : (flagsAfterRaw s).eclen = s.eclen := rfl
@[simp] theorem flagsAfterRaw_gendeg (s : State) : (flagsAfterRaw s).gendeg = s.gendeg := rfl
@[simp] theorem flagsAfterRaw_cfgv (s : State) : (flagsAfterRaw s).cfgv = s.cfgv := rfl
@[simp] theorem flagsAfterRaw_rawv (s : State) : (flagsAfterRaw s).rawv = true := rfl
@[simp] theorem flagsAfterRaw_ecv (s : State) : (flagsAfterRaw s).ecv = false := rfl
@[simp] theorem flagsAfterRaw_cwv (s : State) : (flagsAfterRaw s).cwv = false := rfl
@[simp] theorem flagsAfterRaw_layv (s : State) : (flagsAfterRaw s).layv = s.layv := rfl
@[simp] theorem flagsAfterRaw_plv (s : State) : (flagsAfterRaw s).plv = false := rfl
@[simp] theorem flagsAfterRaw_ferr (s : State) : (flagsAfterRaw s).ferr = s.ferr := rfl
@[simp] theorem flagsAfterRaw_gen (s : State) : (flagsAfterRaw s).gen = s.gen := rfl
@[simp] theorem flagsAfterRaw_dc (s : State) : (flagsAfterRaw s).dc = s.dc := rfl
@[simp] theorem flagsAfterRaw_ec (s : State) : (flagsAfterRaw s).ec = s.ec := rfl
@[simp] theorem flagsAfterRaw_cw (s : State) : (flagsAfterRaw s).cw = s.cw := rfl
@[simp] theorem flagsAfterRaw_data (s : State) : (flagsAfterRaw s).data = s.data := rfl
@[simp] theorem flagsAfterRaw_rsvtag (s : State) : (flagsAfterRaw s).rsvtag = s.rsvtag := rfl
@[simp] theorem flagsAfterRaw_rsvdark (s : State) : (flagsAfterRaw s).rsvdark = s.rsvdark := rfl
@[simp] theorem flagsAfterRaw_inputs (s : State) : (flagsAfterRaw s).inputs = s.inputs := rfl
@[simp] theorem flagsAfterRaw_resp (s : State) : (flagsAfterRaw s).resp = s.resp := rfl

/-! `flagsAfterBlocks` -/

@[simp] theorem flagsAfterBlocks_ver (s : State) : (flagsAfterBlocks s).ver = s.ver := rfl
@[simp] theorem flagsAfterBlocks_ecl (s : State) : (flagsAfterBlocks s).ecl = s.ecl := rfl
@[simp] theorem flagsAfterBlocks_dclen (s : State) : (flagsAfterBlocks s).dclen = s.dclen := rfl
@[simp] theorem flagsAfterBlocks_eclen (s : State) : (flagsAfterBlocks s).eclen = s.eclen := rfl
@[simp] theorem flagsAfterBlocks_gendeg (s : State) : (flagsAfterBlocks s).gendeg = s.gendeg := rfl
@[simp] theorem flagsAfterBlocks_cfgv (s : State) : (flagsAfterBlocks s).cfgv = s.cfgv := rfl
@[simp] theorem flagsAfterBlocks_rawv (s : State) : (flagsAfterBlocks s).rawv = false := rfl
@[simp] theorem flagsAfterBlocks_ecv (s : State) : (flagsAfterBlocks s).ecv = true := rfl
@[simp] theorem flagsAfterBlocks_cwv (s : State) : (flagsAfterBlocks s).cwv = false := rfl
@[simp] theorem flagsAfterBlocks_layv (s : State) : (flagsAfterBlocks s).layv = s.layv := rfl
@[simp] theorem flagsAfterBlocks_plv (s : State) : (flagsAfterBlocks s).plv = false := rfl
@[simp] theorem flagsAfterBlocks_ferr (s : State) : (flagsAfterBlocks s).ferr = s.ferr := rfl
@[simp] theorem flagsAfterBlocks_gen (s : State) : (flagsAfterBlocks s).gen = s.gen := rfl
@[simp] theorem flagsAfterBlocks_dc (s : State) : (flagsAfterBlocks s).dc = s.dc := rfl
@[simp] theorem flagsAfterBlocks_ec (s : State) : (flagsAfterBlocks s).ec = s.ec := rfl
@[simp] theorem flagsAfterBlocks_cw (s : State) : (flagsAfterBlocks s).cw = s.cw := rfl
@[simp] theorem flagsAfterBlocks_data (s : State) : (flagsAfterBlocks s).data = s.data := rfl
@[simp] theorem flagsAfterBlocks_rsvtag (s : State) : (flagsAfterBlocks s).rsvtag = s.rsvtag := rfl
@[simp] theorem flagsAfterBlocks_rsvdark (s : State) : (flagsAfterBlocks s).rsvdark = s.rsvdark := rfl
@[simp] theorem flagsAfterBlocks_inputs (s : State) : (flagsAfterBlocks s).inputs = s.inputs := rfl
@[simp] theorem flagsAfterBlocks_resp (s : State) : (flagsAfterBlocks s).resp = s.resp := rfl

/-! `flagsAfterIlv` -/

@[simp] theorem flagsAfterIlv_ver (s : State) : (flagsAfterIlv s).ver = s.ver := rfl
@[simp] theorem flagsAfterIlv_ecl (s : State) : (flagsAfterIlv s).ecl = s.ecl := rfl
@[simp] theorem flagsAfterIlv_dclen (s : State) : (flagsAfterIlv s).dclen = s.dclen := rfl
@[simp] theorem flagsAfterIlv_eclen (s : State) : (flagsAfterIlv s).eclen = s.eclen := rfl
@[simp] theorem flagsAfterIlv_gendeg (s : State) : (flagsAfterIlv s).gendeg = s.gendeg := rfl
@[simp] theorem flagsAfterIlv_cfgv (s : State) : (flagsAfterIlv s).cfgv = s.cfgv := rfl
@[simp] theorem flagsAfterIlv_rawv (s : State) : (flagsAfterIlv s).rawv = s.rawv := rfl
@[simp] theorem flagsAfterIlv_ecv (s : State) : (flagsAfterIlv s).ecv = s.ecv := rfl
@[simp] theorem flagsAfterIlv_cwv (s : State) : (flagsAfterIlv s).cwv = true := rfl
@[simp] theorem flagsAfterIlv_layv (s : State) : (flagsAfterIlv s).layv = s.layv := rfl
@[simp] theorem flagsAfterIlv_plv (s : State) : (flagsAfterIlv s).plv = false := rfl
@[simp] theorem flagsAfterIlv_ferr (s : State) : (flagsAfterIlv s).ferr = s.ferr := rfl
@[simp] theorem flagsAfterIlv_gen (s : State) : (flagsAfterIlv s).gen = s.gen := rfl
@[simp] theorem flagsAfterIlv_dc (s : State) : (flagsAfterIlv s).dc = s.dc := rfl
@[simp] theorem flagsAfterIlv_ec (s : State) : (flagsAfterIlv s).ec = s.ec := rfl
@[simp] theorem flagsAfterIlv_cw (s : State) : (flagsAfterIlv s).cw = s.cw := rfl
@[simp] theorem flagsAfterIlv_data (s : State) : (flagsAfterIlv s).data = s.data := rfl
@[simp] theorem flagsAfterIlv_rsvtag (s : State) : (flagsAfterIlv s).rsvtag = s.rsvtag := rfl
@[simp] theorem flagsAfterIlv_rsvdark (s : State) : (flagsAfterIlv s).rsvdark = s.rsvdark := rfl
@[simp] theorem flagsAfterIlv_inputs (s : State) : (flagsAfterIlv s).inputs = s.inputs := rfl
@[simp] theorem flagsAfterIlv_resp (s : State) : (flagsAfterIlv s).resp = s.resp := rfl

/-! `flagsAfterLayout` -/

@[simp] theorem flagsAfterLayout_ver (s : State) : (flagsAfterLayout s).ver = s.ver := rfl
@[simp] theorem flagsAfterLayout_ecl (s : State) : (flagsAfterLayout s).ecl = s.ecl := rfl
@[simp] theorem flagsAfterLayout_dclen (s : State) : (flagsAfterLayout s).dclen = s.dclen := rfl
@[simp] theorem flagsAfterLayout_eclen (s : State) : (flagsAfterLayout s).eclen = s.eclen := rfl
@[simp] theorem flagsAfterLayout_gendeg (s : State) : (flagsAfterLayout s).gendeg = s.gendeg := rfl
@[simp] theorem flagsAfterLayout_cfgv (s : State) : (flagsAfterLayout s).cfgv = s.cfgv := rfl
@[simp] theorem flagsAfterLayout_rawv (s : State) : (flagsAfterLayout s).rawv = s.rawv := rfl
@[simp] theorem flagsAfterLayout_ecv (s : State) : (flagsAfterLayout s).ecv = s.ecv := rfl
@[simp] theorem flagsAfterLayout_cwv (s : State) : (flagsAfterLayout s).cwv = s.cwv := rfl
@[simp] theorem flagsAfterLayout_layv (s : State) : (flagsAfterLayout s).layv = true := rfl
@[simp] theorem flagsAfterLayout_plv (s : State) : (flagsAfterLayout s).plv = false := rfl
@[simp] theorem flagsAfterLayout_ferr (s : State) : (flagsAfterLayout s).ferr = s.ferr := rfl
@[simp] theorem flagsAfterLayout_gen (s : State) : (flagsAfterLayout s).gen = s.gen := rfl
@[simp] theorem flagsAfterLayout_dc (s : State) : (flagsAfterLayout s).dc = s.dc := rfl
@[simp] theorem flagsAfterLayout_ec (s : State) : (flagsAfterLayout s).ec = s.ec := rfl
@[simp] theorem flagsAfterLayout_cw (s : State) : (flagsAfterLayout s).cw = s.cw := rfl
@[simp] theorem flagsAfterLayout_data (s : State) : (flagsAfterLayout s).data = s.data := rfl
@[simp] theorem flagsAfterLayout_rsvtag (s : State) : (flagsAfterLayout s).rsvtag = s.rsvtag := rfl
@[simp] theorem flagsAfterLayout_rsvdark (s : State) : (flagsAfterLayout s).rsvdark = s.rsvdark := rfl
@[simp] theorem flagsAfterLayout_inputs (s : State) : (flagsAfterLayout s).inputs = s.inputs := rfl
@[simp] theorem flagsAfterLayout_resp (s : State) : (flagsAfterLayout s).resp = s.resp := rfl

/-! `flagsAfterPlace` -/

@[simp] theorem flagsAfterPlace_ver (s : State) : (flagsAfterPlace s).ver = s.ver := rfl
@[simp] theorem flagsAfterPlace_ecl (s : State) : (flagsAfterPlace s).ecl = s.ecl := rfl
@[simp] theorem flagsAfterPlace_dclen (s : State) : (flagsAfterPlace s).dclen = s.dclen := rfl
@[simp] theorem flagsAfterPlace_eclen (s : State) : (flagsAfterPlace s).eclen = s.eclen := rfl
@[simp] theorem flagsAfterPlace_gendeg (s : State) : (flagsAfterPlace s).gendeg = s.gendeg := rfl
@[simp] theorem flagsAfterPlace_cfgv (s : State) : (flagsAfterPlace s).cfgv = s.cfgv := rfl
@[simp] theorem flagsAfterPlace_rawv (s : State) : (flagsAfterPlace s).rawv = s.rawv := rfl
@[simp] theorem flagsAfterPlace_ecv (s : State) : (flagsAfterPlace s).ecv = s.ecv := rfl
@[simp] theorem flagsAfterPlace_cwv (s : State) : (flagsAfterPlace s).cwv = s.cwv := rfl
@[simp] theorem flagsAfterPlace_layv (s : State) : (flagsAfterPlace s).layv = s.layv := rfl
@[simp] theorem flagsAfterPlace_plv (s : State) : (flagsAfterPlace s).plv = true := rfl
@[simp] theorem flagsAfterPlace_ferr (s : State) : (flagsAfterPlace s).ferr = s.ferr := rfl
@[simp] theorem flagsAfterPlace_gen (s : State) : (flagsAfterPlace s).gen = s.gen := rfl
@[simp] theorem flagsAfterPlace_dc (s : State) : (flagsAfterPlace s).dc = s.dc := rfl
@[simp] theorem flagsAfterPlace_ec (s : State) : (flagsAfterPlace s).ec = s.ec := rfl
@[simp] theorem flagsAfterPlace_cw (s : State) : (flagsAfterPlace s).cw = s.cw := rfl
@[simp] theorem flagsAfterPlace_data (s : State) : (flagsAfterPlace s).data = s.data := rfl
@[simp] theorem flagsAfterPlace_rsvtag (s : State) : (flagsAfterPlace s).rsvtag = s.rsvtag := rfl
@[simp] theorem flagsAfterPlace_rsvdark (s : State) : (flagsAfterPlace s).rsvdark = s.rsvdark := rfl
@[simp] theorem flagsAfterPlace_inputs (s : State) : (flagsAfterPlace s).inputs = s.inputs := rfl
@[simp] theorem flagsAfterPlace_resp (s : State) : (flagsAfterPlace s).resp = s.resp := rfl

/-! `configure` -/

@[simp] theorem configure_ver (v : BitVec 6) (l : BitVec 2) (s : State) : (configure v l s).ver = v := rfl
@[simp] theorem configure_ecl (v : BitVec 6) (l : BitVec 2) (s : State) : (configure v l s).ecl = l := rfl
@[simp] theorem configure_dclen (v : BitVec 6) (l : BitVec 2) (s : State) : (configure v l s).dclen = 0#12 := rfl
@[simp] theorem configure_eclen (v : BitVec 6) (l : BitVec 2) (s : State) : (configure v l s).eclen = 0#12 := rfl
@[simp] theorem configure_gendeg (v : BitVec 6) (l : BitVec 2) (s : State) : (configure v l s).gendeg = s.gendeg := rfl
@[simp] theorem configure_cfgv (v : BitVec 6) (l : BitVec 2) (s : State) : (configure v l s).cfgv = true := rfl
@[simp] theorem configure_rawv (v : BitVec 6) (l : BitVec 2) (s : State) : (configure v l s).rawv = false := rfl
@[simp] theorem configure_ecv (v : BitVec 6) (l : BitVec 2) (s : State) : (configure v l s).ecv = false := rfl
@[simp] theorem configure_cwv (v : BitVec 6) (l : BitVec 2) (s : State) : (configure v l s).cwv = false := rfl
@[simp] theorem configure_layv (v : BitVec 6) (l : BitVec 2) (s : State) : (configure v l s).layv = false := rfl
@[simp] theorem configure_plv (v : BitVec 6) (l : BitVec 2) (s : State) : (configure v l s).plv = false := rfl
@[simp] theorem configure_ferr (v : BitVec 6) (l : BitVec 2) (s : State) : (configure v l s).ferr = s.ferr := rfl
@[simp] theorem configure_gen (v : BitVec 6) (l : BitVec 2) (s : State) : (configure v l s).gen = s.gen := rfl
@[simp] theorem configure_dc (v : BitVec 6) (l : BitVec 2) (s : State) : (configure v l s).dc = s.dc := rfl
@[simp] theorem configure_ec (v : BitVec 6) (l : BitVec 2) (s : State) : (configure v l s).ec = s.ec := rfl
@[simp] theorem configure_cw (v : BitVec 6) (l : BitVec 2) (s : State) : (configure v l s).cw = s.cw := rfl
@[simp] theorem configure_data (v : BitVec 6) (l : BitVec 2) (s : State) : (configure v l s).data = s.data := rfl
@[simp] theorem configure_rsvtag (v : BitVec 6) (l : BitVec 2) (s : State) : (configure v l s).rsvtag = s.rsvtag := rfl
@[simp] theorem configure_rsvdark (v : BitVec 6) (l : BitVec 2) (s : State) : (configure v l s).rsvdark = s.rsvdark := rfl
@[simp] theorem configure_inputs (v : BitVec 6) (l : BitVec 2) (s : State) : (configure v l s).inputs = s.inputs := rfl
@[simp] theorem configure_resp (v : BitVec 6) (l : BitVec 2) (s : State) : (configure v l s).resp = s.resp := rfl

/-! `installGen` -/

@[simp] theorem installGen_ver (k : Nat) (s : State) : (installGen k s).ver = s.ver := rfl
@[simp] theorem installGen_ecl (k : Nat) (s : State) : (installGen k s).ecl = s.ecl := rfl
@[simp] theorem installGen_dclen (k : Nat) (s : State) : (installGen k s).dclen = s.dclen := rfl
@[simp] theorem installGen_eclen (k : Nat) (s : State) : (installGen k s).eclen = s.eclen := rfl
@[simp] theorem installGen_gendeg (k : Nat) (s : State) : (installGen k s).gendeg = BitVec.ofNat 5 k := rfl
@[simp] theorem installGen_cfgv (k : Nat) (s : State) : (installGen k s).cfgv = s.cfgv := rfl
@[simp] theorem installGen_rawv (k : Nat) (s : State) : (installGen k s).rawv = s.rawv := rfl
@[simp] theorem installGen_ecv (k : Nat) (s : State) : (installGen k s).ecv = s.ecv := rfl
@[simp] theorem installGen_cwv (k : Nat) (s : State) : (installGen k s).cwv = s.cwv := rfl
@[simp] theorem installGen_layv (k : Nat) (s : State) : (installGen k s).layv = s.layv := rfl
@[simp] theorem installGen_plv (k : Nat) (s : State) : (installGen k s).plv = s.plv := rfl
@[simp] theorem installGen_ferr (k : Nat) (s : State) : (installGen k s).ferr = s.ferr := rfl
@[simp] theorem installGen_gen (k : Nat) (s : State) : (installGen k s).gen = numbered 0 (genPoly k) := rfl
@[simp] theorem installGen_dc (k : Nat) (s : State) : (installGen k s).dc = s.dc := rfl
@[simp] theorem installGen_ec (k : Nat) (s : State) : (installGen k s).ec = s.ec := rfl
@[simp] theorem installGen_cw (k : Nat) (s : State) : (installGen k s).cw = s.cw := rfl
@[simp] theorem installGen_data (k : Nat) (s : State) : (installGen k s).data = s.data := rfl
@[simp] theorem installGen_rsvtag (k : Nat) (s : State) : (installGen k s).rsvtag = s.rsvtag := rfl
@[simp] theorem installGen_rsvdark (k : Nat) (s : State) : (installGen k s).rsvdark = s.rsvdark := rfl
@[simp] theorem installGen_inputs (k : Nat) (s : State) : (installGen k s).inputs = s.inputs := rfl
@[simp] theorem installGen_resp (k : Nat) (s : State) : (installGen k s).resp = s.resp := rfl

/-! `storeEc` -/

@[simp] theorem storeEc_ver (bytes : List Byte) (n : Nat) (s : State) : (storeEc bytes n s).ver = s.ver := rfl
@[simp] theorem storeEc_ecl (bytes : List Byte) (n : Nat) (s : State) : (storeEc bytes n s).ecl = s.ecl := rfl
@[simp] theorem storeEc_dclen (bytes : List Byte) (n : Nat) (s : State) : (storeEc bytes n s).dclen = s.dclen := rfl
@[simp] theorem storeEc_eclen (bytes : List Byte) (n : Nat) (s : State) : (storeEc bytes n s).eclen = BitVec.ofNat 12 n := rfl
@[simp] theorem storeEc_gendeg (bytes : List Byte) (n : Nat) (s : State) : (storeEc bytes n s).gendeg = s.gendeg := rfl
@[simp] theorem storeEc_cfgv (bytes : List Byte) (n : Nat) (s : State) : (storeEc bytes n s).cfgv = s.cfgv := rfl
@[simp] theorem storeEc_rawv (bytes : List Byte) (n : Nat) (s : State) : (storeEc bytes n s).rawv = s.rawv := rfl
@[simp] theorem storeEc_ecv (bytes : List Byte) (n : Nat) (s : State) : (storeEc bytes n s).ecv = s.ecv := rfl
@[simp] theorem storeEc_cwv (bytes : List Byte) (n : Nat) (s : State) : (storeEc bytes n s).cwv = s.cwv := rfl
@[simp] theorem storeEc_layv (bytes : List Byte) (n : Nat) (s : State) : (storeEc bytes n s).layv = s.layv := rfl
@[simp] theorem storeEc_plv (bytes : List Byte) (n : Nat) (s : State) : (storeEc bytes n s).plv = s.plv := rfl
@[simp] theorem storeEc_ferr (bytes : List Byte) (n : Nat) (s : State) : (storeEc bytes n s).ferr = s.ferr := rfl
@[simp] theorem storeEc_gen (bytes : List Byte) (n : Nat) (s : State) : (storeEc bytes n s).gen = s.gen := rfl
@[simp] theorem storeEc_dc (bytes : List Byte) (n : Nat) (s : State) : (storeEc bytes n s).dc = s.dc := rfl
@[simp] theorem storeEc_ec (bytes : List Byte) (n : Nat) (s : State) : (storeEc bytes n s).ec = bufWrite s.ec 0 bytes := rfl
@[simp] theorem storeEc_cw (bytes : List Byte) (n : Nat) (s : State) : (storeEc bytes n s).cw = s.cw := rfl
@[simp] theorem storeEc_data (bytes : List Byte) (n : Nat) (s : State) : (storeEc bytes n s).data = s.data := rfl
@[simp] theorem storeEc_rsvtag (bytes : List Byte) (n : Nat) (s : State) : (storeEc bytes n s).rsvtag = s.rsvtag := rfl
@[simp] theorem storeEc_rsvdark (bytes : List Byte) (n : Nat) (s : State) : (storeEc bytes n s).rsvdark = s.rsvdark := rfl
@[simp] theorem storeEc_inputs (bytes : List Byte) (n : Nat) (s : State) : (storeEc bytes n s).inputs = s.inputs := rfl
@[simp] theorem storeEc_resp (bytes : List Byte) (n : Nat) (s : State) : (storeEc bytes n s).resp = s.resp := rfl

/-! `rsrawState` -/

@[simp] theorem rsrawState_ver (k : Nat) (s : State) : (rsrawState k s).ver = s.ver := rfl
@[simp] theorem rsrawState_ecl (k : Nat) (s : State) : (rsrawState k s).ecl = s.ecl := rfl
@[simp] theorem rsrawState_dclen (k : Nat) (s : State) : (rsrawState k s).dclen = s.dclen := rfl
@[simp] theorem rsrawState_eclen (k : Nat) (s : State) : (rsrawState k s).eclen = BitVec.ofNat 12 k := rfl
@[simp] theorem rsrawState_gendeg (k : Nat) (s : State) : (rsrawState k s).gendeg = BitVec.ofNat 5 k := rfl
@[simp] theorem rsrawState_cfgv (k : Nat) (s : State) : (rsrawState k s).cfgv = s.cfgv := rfl
@[simp] theorem rsrawState_rawv (k : Nat) (s : State) : (rsrawState k s).rawv = true := rfl
@[simp] theorem rsrawState_ecv (k : Nat) (s : State) : (rsrawState k s).ecv = false := rfl
@[simp] theorem rsrawState_cwv (k : Nat) (s : State) : (rsrawState k s).cwv = false := rfl
@[simp] theorem rsrawState_layv (k : Nat) (s : State) : (rsrawState k s).layv = s.layv := rfl
@[simp] theorem rsrawState_plv (k : Nat) (s : State) : (rsrawState k s).plv = false := rfl
@[simp] theorem rsrawState_ferr (k : Nat) (s : State) : (rsrawState k s).ferr = s.ferr := rfl
@[simp] theorem rsrawState_gen (k : Nat) (s : State) : (rsrawState k s).gen = numbered 0 (genPoly k) := rfl
@[simp] theorem rsrawState_dc (k : Nat) (s : State) : (rsrawState k s).dc = s.dc := rfl
@[simp] theorem rsrawState_ec (k : Nat) (s : State) :
    (rsrawState k s).ec = bufWrite s.ec 0 (rsEncode (readRun .dc s.dc 0 s.dclen.toNat) k) := rfl
@[simp] theorem rsrawState_cw (k : Nat) (s : State) : (rsrawState k s).cw = s.cw := rfl
@[simp] theorem rsrawState_data (k : Nat) (s : State) : (rsrawState k s).data = s.data := rfl
@[simp] theorem rsrawState_rsvtag (k : Nat) (s : State) : (rsrawState k s).rsvtag = s.rsvtag := rfl
@[simp] theorem rsrawState_rsvdark (k : Nat) (s : State) : (rsrawState k s).rsvdark = s.rsvdark := rfl
@[simp] theorem rsrawState_inputs (k : Nat) (s : State) : (rsrawState k s).inputs = s.inputs := rfl
@[simp] theorem rsrawState_resp (k : Nat) (s : State) : (rsrawState k s).resp = s.resp := rfl

/-! `rsblksState` -/

@[simp] theorem rsblksState_ver (p : Symbol) (s : State) : (rsblksState p s).ver = s.ver := rfl
@[simp] theorem rsblksState_ecl (p : Symbol) (s : State) : (rsblksState p s).ecl = s.ecl := rfl
@[simp] theorem rsblksState_dclen (p : Symbol) (s : State) : (rsblksState p s).dclen = s.dclen := rfl
@[simp] theorem rsblksState_eclen (p : Symbol) (s : State) : (rsblksState p s).eclen = BitVec.ofNat 12 (p.b * p.e) := rfl
@[simp] theorem rsblksState_gendeg (p : Symbol) (s : State) : (rsblksState p s).gendeg = BitVec.ofNat 5 p.e := rfl
@[simp] theorem rsblksState_cfgv (p : Symbol) (s : State) : (rsblksState p s).cfgv = s.cfgv := rfl
@[simp] theorem rsblksState_rawv (p : Symbol) (s : State) : (rsblksState p s).rawv = false := rfl
@[simp] theorem rsblksState_ecv (p : Symbol) (s : State) : (rsblksState p s).ecv = true := rfl
@[simp] theorem rsblksState_cwv (p : Symbol) (s : State) : (rsblksState p s).cwv = false := rfl
@[simp] theorem rsblksState_layv (p : Symbol) (s : State) : (rsblksState p s).layv = s.layv := rfl
@[simp] theorem rsblksState_plv (p : Symbol) (s : State) : (rsblksState p s).plv = false := rfl
@[simp] theorem rsblksState_ferr (p : Symbol) (s : State) : (rsblksState p s).ferr = s.ferr := rfl
@[simp] theorem rsblksState_gen (p : Symbol) (s : State) : (rsblksState p s).gen = numbered 0 (genPoly p.e) := rfl
@[simp] theorem rsblksState_dc (p : Symbol) (s : State) : (rsblksState p s).dc = s.dc := rfl
@[simp] theorem rsblksState_ec (p : Symbol) (s : State) :
    (rsblksState p s).ec = bufWrite s.ec 0 (blocksEc p (readByte .dc s.dc)) := rfl
@[simp] theorem rsblksState_cw (p : Symbol) (s : State) : (rsblksState p s).cw = s.cw := rfl
@[simp] theorem rsblksState_data (p : Symbol) (s : State) : (rsblksState p s).data = s.data := rfl
@[simp] theorem rsblksState_rsvtag (p : Symbol) (s : State) : (rsblksState p s).rsvtag = s.rsvtag := rfl
@[simp] theorem rsblksState_rsvdark (p : Symbol) (s : State) : (rsblksState p s).rsvdark = s.rsvdark := rfl
@[simp] theorem rsblksState_inputs (p : Symbol) (s : State) : (rsblksState p s).inputs = s.inputs := rfl
@[simp] theorem rsblksState_resp (p : Symbol) (s : State) : (rsblksState p s).resp = s.resp := rfl

/-! `ilvState` -/

@[simp] theorem ilvState_ver (p : Symbol) (s : State) : (ilvState p s).ver = s.ver := rfl
@[simp] theorem ilvState_ecl (p : Symbol) (s : State) : (ilvState p s).ecl = s.ecl := rfl
@[simp] theorem ilvState_dclen (p : Symbol) (s : State) : (ilvState p s).dclen = s.dclen := rfl
@[simp] theorem ilvState_eclen (p : Symbol) (s : State) : (ilvState p s).eclen = s.eclen := rfl
@[simp] theorem ilvState_gendeg (p : Symbol) (s : State) : (ilvState p s).gendeg = s.gendeg := rfl
@[simp] theorem ilvState_cfgv (p : Symbol) (s : State) : (ilvState p s).cfgv = s.cfgv := rfl
@[simp] theorem ilvState_rawv (p : Symbol) (s : State) : (ilvState p s).rawv = s.rawv := rfl
@[simp] theorem ilvState_ecv (p : Symbol) (s : State) : (ilvState p s).ecv = s.ecv := rfl
@[simp] theorem ilvState_cwv (p : Symbol) (s : State) : (ilvState p s).cwv = true := rfl
@[simp] theorem ilvState_layv (p : Symbol) (s : State) : (ilvState p s).layv = s.layv := rfl
@[simp] theorem ilvState_plv (p : Symbol) (s : State) : (ilvState p s).plv = false := rfl
@[simp] theorem ilvState_ferr (p : Symbol) (s : State) : (ilvState p s).ferr = s.ferr := rfl
@[simp] theorem ilvState_gen (p : Symbol) (s : State) : (ilvState p s).gen = s.gen := rfl
@[simp] theorem ilvState_dc (p : Symbol) (s : State) : (ilvState p s).dc = s.dc := rfl
@[simp] theorem ilvState_ec (p : Symbol) (s : State) : (ilvState p s).ec = s.ec := rfl
@[simp] theorem ilvState_cw (p : Symbol) (s : State) :
    (ilvState p s).cw = bufWrite s.cw 0 (interleave p (readByte .dc s.dc) (readByte .ec s.ec)) := rfl
@[simp] theorem ilvState_data (p : Symbol) (s : State) : (ilvState p s).data = s.data := rfl
@[simp] theorem ilvState_rsvtag (p : Symbol) (s : State) : (ilvState p s).rsvtag = s.rsvtag := rfl
@[simp] theorem ilvState_rsvdark (p : Symbol) (s : State) : (ilvState p s).rsvdark = s.rsvdark := rfl
@[simp] theorem ilvState_inputs (p : Symbol) (s : State) : (ilvState p s).inputs = s.inputs := rfl
@[simp] theorem ilvState_resp (p : Symbol) (s : State) : (ilvState p s).resp = s.resp := rfl

/-! `layoutState` -/

@[simp] theorem layoutState_ver (p : Symbol) (s : State) : (layoutState p s).ver = s.ver := rfl
@[simp] theorem layoutState_ecl (p : Symbol) (s : State) : (layoutState p s).ecl = s.ecl := rfl
@[simp] theorem layoutState_dclen (p : Symbol) (s : State) : (layoutState p s).dclen = s.dclen := rfl
@[simp] theorem layoutState_eclen (p : Symbol) (s : State) : (layoutState p s).eclen = s.eclen := rfl
@[simp] theorem layoutState_gendeg (p : Symbol) (s : State) : (layoutState p s).gendeg = s.gendeg := rfl
@[simp] theorem layoutState_cfgv (p : Symbol) (s : State) : (layoutState p s).cfgv = s.cfgv := rfl
@[simp] theorem layoutState_rawv (p : Symbol) (s : State) : (layoutState p s).rawv = s.rawv := rfl
@[simp] theorem layoutState_ecv (p : Symbol) (s : State) : (layoutState p s).ecv = s.ecv := rfl
@[simp] theorem layoutState_cwv (p : Symbol) (s : State) : (layoutState p s).cwv = s.cwv := rfl
@[simp] theorem layoutState_layv (p : Symbol) (s : State) : (layoutState p s).layv = true := rfl
@[simp] theorem layoutState_plv (p : Symbol) (s : State) : (layoutState p s).plv = false := rfl
@[simp] theorem layoutState_ferr (p : Symbol) (s : State) : (layoutState p s).ferr = s.ferr := rfl
@[simp] theorem layoutState_gen (p : Symbol) (s : State) : (layoutState p s).gen = s.gen := rfl
@[simp] theorem layoutState_dc (p : Symbol) (s : State) : (layoutState p s).dc = s.dc := rfl
@[simp] theorem layoutState_ec (p : Symbol) (s : State) : (layoutState p s).ec = s.ec := rfl
@[simp] theorem layoutState_cw (p : Symbol) (s : State) : (layoutState p s).cw = s.cw := rfl
@[simp] theorem layoutState_data (p : Symbol) (s : State) :
    (layoutState p s).data = bufWrite s.data 0 ((layoutMarks p).map (·.dark)) := rfl
@[simp] theorem layoutState_rsvtag (p : Symbol) (s : State) :
    (layoutState p s).rsvtag = bufWrite s.rsvtag 0 ((layoutMarks p).map (·.tag)) := rfl
@[simp] theorem layoutState_rsvdark (p : Symbol) (s : State) :
    (layoutState p s).rsvdark = bufWrite s.rsvdark 0 ((layoutMarks p).map (·.dark)) := rfl
@[simp] theorem layoutState_inputs (p : Symbol) (s : State) : (layoutState p s).inputs = s.inputs := rfl
@[simp] theorem layoutState_resp (p : Symbol) (s : State) : (layoutState p s).resp = s.resp := rfl

/-! `placeState` -/

@[simp] theorem placeState_ver (p : Symbol) (s : State) : (placeState p s).ver = s.ver := rfl
@[simp] theorem placeState_ecl (p : Symbol) (s : State) : (placeState p s).ecl = s.ecl := rfl
@[simp] theorem placeState_dclen (p : Symbol) (s : State) : (placeState p s).dclen = s.dclen := rfl
@[simp] theorem placeState_eclen (p : Symbol) (s : State) : (placeState p s).eclen = s.eclen := rfl
@[simp] theorem placeState_gendeg (p : Symbol) (s : State) : (placeState p s).gendeg = s.gendeg := rfl
@[simp] theorem placeState_cfgv (p : Symbol) (s : State) : (placeState p s).cfgv = s.cfgv := rfl
@[simp] theorem placeState_rawv (p : Symbol) (s : State) : (placeState p s).rawv = s.rawv := rfl
@[simp] theorem placeState_ecv (p : Symbol) (s : State) : (placeState p s).ecv = s.ecv := rfl
@[simp] theorem placeState_cwv (p : Symbol) (s : State) : (placeState p s).cwv = s.cwv := rfl
@[simp] theorem placeState_layv (p : Symbol) (s : State) : (placeState p s).layv = s.layv := rfl
@[simp] theorem placeState_plv (p : Symbol) (s : State) : (placeState p s).plv = true := rfl
@[simp] theorem placeState_ferr (p : Symbol) (s : State) : (placeState p s).ferr = s.ferr := rfl
@[simp] theorem placeState_gen (p : Symbol) (s : State) : (placeState p s).gen = s.gen := rfl
@[simp] theorem placeState_dc (p : Symbol) (s : State) : (placeState p s).dc = s.dc := rfl
@[simp] theorem placeState_ec (p : Symbol) (s : State) : (placeState p s).ec = s.ec := rfl
@[simp] theorem placeState_cw (p : Symbol) (s : State) : (placeState p s).cw = s.cw := rfl
@[simp] theorem placeState_data (p : Symbol) (s : State) :
    (placeState p s).data = placeBits (streamBit p.t (readByte .cw s.cw)) (placeTargets p s) 0 s.data := rfl
@[simp] theorem placeState_rsvtag (p : Symbol) (s : State) : (placeState p s).rsvtag = s.rsvtag := rfl
@[simp] theorem placeState_rsvdark (p : Symbol) (s : State) : (placeState p s).rsvdark = s.rsvdark := rfl
@[simp] theorem placeState_inputs (p : Symbol) (s : State) : (placeState p s).inputs = s.inputs := rfl
@[simp] theorem placeState_resp (p : Symbol) (s : State) : (placeState p s).resp = s.resp := rfl

/-! `pushState` -/

@[simp] theorem pushState_ver (b : BitVec 8) (s : State) : (pushState b s).ver = s.ver := rfl
@[simp] theorem pushState_ecl (b : BitVec 8) (s : State) : (pushState b s).ecl = s.ecl := rfl
@[simp] theorem pushState_dclen (b : BitVec 8) (s : State) : (pushState b s).dclen = s.dclen + 1#12 := rfl
@[simp] theorem pushState_eclen (b : BitVec 8) (s : State) : (pushState b s).eclen = s.eclen := rfl
@[simp] theorem pushState_gendeg (b : BitVec 8) (s : State) : (pushState b s).gendeg = s.gendeg := rfl
@[simp] theorem pushState_cfgv (b : BitVec 8) (s : State) : (pushState b s).cfgv = s.cfgv := rfl
@[simp] theorem pushState_rawv (b : BitVec 8) (s : State) : (pushState b s).rawv = false := rfl
@[simp] theorem pushState_ecv (b : BitVec 8) (s : State) : (pushState b s).ecv = false := rfl
@[simp] theorem pushState_cwv (b : BitVec 8) (s : State) : (pushState b s).cwv = false := rfl
@[simp] theorem pushState_layv (b : BitVec 8) (s : State) : (pushState b s).layv = s.layv := rfl
@[simp] theorem pushState_plv (b : BitVec 8) (s : State) : (pushState b s).plv = false := rfl
@[simp] theorem pushState_ferr (b : BitVec 8) (s : State) : (pushState b s).ferr = s.ferr := rfl
@[simp] theorem pushState_gen (b : BitVec 8) (s : State) : (pushState b s).gen = s.gen := rfl
@[simp] theorem pushState_dc (b : BitVec 8) (s : State) : (pushState b s).dc = bufSet s.dc s.dclen.toNat b := rfl
@[simp] theorem pushState_ec (b : BitVec 8) (s : State) : (pushState b s).ec = s.ec := rfl
@[simp] theorem pushState_cw (b : BitVec 8) (s : State) : (pushState b s).cw = s.cw := rfl
@[simp] theorem pushState_data (b : BitVec 8) (s : State) : (pushState b s).data = s.data := rfl
@[simp] theorem pushState_rsvtag (b : BitVec 8) (s : State) : (pushState b s).rsvtag = s.rsvtag := rfl
@[simp] theorem pushState_rsvdark (b : BitVec 8) (s : State) : (pushState b s).rsvdark = s.rsvdark := rfl
@[simp] theorem pushState_inputs (b : BitVec 8) (s : State) : (pushState b s).inputs = s.inputs := rfl
@[simp] theorem pushState_resp (b : BitVec 8) (s : State) : (pushState b s).resp = s.resp := rfl

end Sys2Proof.Machine
end

