-- ==== Sys2Proof/Laws/Ops.lean ====
section
/-! SUPPORT. What each shared operation can answer, said once: the provers cite these instead of unfolding. -/

namespace Sys2Proof.Machine

/-- `respond` answers the state with the response word on the port. -/
theorem respond_eq (v : Val) (s : State) : respond v s = .next (withResp (responseWord .ok v) s) := rfl

/-- `failWith` answers the failed state. -/
theorem failWith_eq (code : Status) (s : State) : failWith code s = .next (failState code s) := rfl

theorem require_pos (cond : Prop) [Decidable cond] (h : cond) (code : Status) (s : State) (rest : Result) :
    require cond code s rest = rest := if_pos h

theorem require_neg (cond : Prop) [Decidable cond] (h : ¬ cond) (code : Status) (s : State) (rest : Result) :
    require cond code s rest = .next (failState code s) := if_neg h

/-- If `require` answers a next state, either the test failed and the command failed, or the rest answered it. -/
theorem require_next (cond : Prop) [Decidable cond] (code : Status) (s t : State) (rest : Result)
    (h : require cond code s rest = .next t) : (¬ cond ∧ t = failState code s) ∨ (cond ∧ rest = .next t) := by
  by_cases hc : cond
  · exact .inr ⟨hc, by rwa [require_pos cond hc] at h⟩
  · refine .inl ⟨hc, ?_⟩
    rw [require_neg cond hc] at h
    injection h with h
    exact h.symm

/-- If `withSymbol` answers a next state, the version has a row, and the rest answered it. -/
theorem withSymbol_next (params : Params) (ver : BitVec 6) (ecl : BitVec 2) (t : State) (rest : Symbol → Result)
    (h : withSymbol params ver ecl rest = .next t) : ∃ p, symbolWith params ver ecl = some p ∧ rest p = .next t := by
  unfold withSymbol at h
  split at h
  · exact ⟨_, ‹_›, h⟩
  · cases h

theorem withSymbol_some (params : Params) (ver : BitVec 6) (ecl : BitVec 2) (p : Symbol)
    (hp : symbolWith params ver ecl = some p) (rest : Symbol → Result) : withSymbol params ver ecl rest = rest p := by
  simp [withSymbol, hp]

/-- If `withElement` answers a next state, the element exists, and the rest answered it. -/
theorem withElement_next (sp : Space) (i : Nat) (t : State) (rest : Result)
    (h : withElement sp i rest = .next t) : i < capacity sp ∧ rest = .next t := by
  unfold withElement at h
  split at h
  · exact ⟨‹_›, h⟩
  · cases h

theorem withElement_pos (sp : Space) (i : Nat) (hi : i < capacity sp) (rest : Result) :
    withElement sp i rest = rest := if_pos hi

/-- Serving an input: a command word runs, and either kind of reset leaves the reset state. -/
theorem serve_command (w : Word) (s : State) : serve (.command w) s = runWord w s := rfl

theorem serve_reset (s : State) : serve .reset s = .next (clearState s) := rfl

theorem serve_resetDuring (w : Word) (s : State) : serve (.resetDuring w) s = .next (clearState s) := rfl

/-- What a word can do, whatever runs the commands: it is illegal, malformed, or runs the decoded command (R45). -/
theorem runWordBy_next (run : Instr → State → Result) (w : Word) (s t : State) (h : runWordBy run w s = .next t) :
    (decode w = .illegal ∧ t = failState .badOp s) ∨ (decode w = .malformed ∧ t = failState .badArg s) ∨
    ∃ i, decode w = .wellFormed i ∧ run i s = .next t := by
  unfold runWordBy at h
  split at h
  · exact .inl ⟨‹_›, by injection h with h; exact h.symm⟩
  · exact .inr (.inl ⟨‹_›, by injection h with h; exact h.symm⟩)
  · exact .inr (.inr ⟨_, ‹_›, h⟩)

/-- What a word can do under the default parameters. -/
theorem runWord_next (w : Word) (s t : State) (h : runWord w s = .next t) :
    (decode w = .illegal ∧ t = failState .badOp s) ∨ (decode w = .malformed ∧ t = failState .badArg s) ∨
    ∃ i, decode w = .wellFormed i ∧ exec i s = .next t := runWordBy_next exec w s t h

/-- Everything a step can do, whatever runs the commands: idle, run a word, or reset. -/
theorem stepPortBy_next (run : Instr → State → Result) (s t : State) (h : stepPortBy run s = .next t) :
    (s.inputs = [] ∧ t = s) ∨
    (∃ w rest, s.inputs = .command w :: rest ∧ runWordBy run w { s with inputs := rest } = .next t) ∨
    (∃ x rest, s.inputs = x :: rest ∧ (x = .reset ∨ ∃ w, x = .resetDuring w) ∧
      t = clearState { s with inputs := rest }) := by
  unfold stepPortBy at h
  split at h
  · exact .inl ⟨‹_›, by injection h with h; exact h.symm⟩
  · rename_i x rest hx
    cases x with
    | command w => exact .inr (.inl ⟨w, rest, hx, h⟩)
    | reset => exact .inr (.inr ⟨.reset, rest, hx, .inl rfl, by injection h with h; exact h.symm⟩)
    | resetDuring w => exact .inr (.inr ⟨.resetDuring w, rest, hx, .inr ⟨w, rfl⟩, by injection h with h; exact h.symm⟩)

/-- Everything a step can do under the default parameters. -/
theorem step_next (s t : State) (h : step s = .next t) :
    (s.inputs = [] ∧ t = s) ∨
    (∃ w rest, s.inputs = .command w :: rest ∧ runWord w { s with inputs := rest } = .next t) ∨
    (∃ x rest, s.inputs = x :: rest ∧ (x = .reset ∨ ∃ w, x = .resetDuring w) ∧
      t = clearState { s with inputs := rest }) := stepPortBy_next exec s t h

/-- A step under given parameters answers a next state only when they are well-formed, and then does what any step can. -/
theorem stepWith_next (params : Params) (s t : State) (h : stepWith params s = .next t) :
    paramsWellFormed params = true ∧
    ((s.inputs = [] ∧ t = s) ∨
    (∃ w rest, s.inputs = .command w :: rest ∧ runWordWith params w { s with inputs := rest } = .next t) ∨
    (∃ x rest, s.inputs = x :: rest ∧ (x = .reset ∨ ∃ w, x = .resetDuring w) ∧
      t = clearState { s with inputs := rest })) := by
  unfold stepWith at h
  split at h
  · exact ⟨‹_›, stepPortBy_next _ s t h⟩
  · cases h

end Sys2Proof.Machine
end

