-- ==== Sys2Proof/Laws/PerInstr.lean ====
section
/-! SUPPORT. One fact for every command as syntax: its word meets the `match` and `mask` columns of rule R44. -/

namespace Sys2Proof.Laws

/-- A word that meets one row of the columns is well-formed. -/
theorem word_of_row (w m k : Word) (hm : (m, k) ∈ WellFormed.matchMask) (h : w &&& k = m) :
    WellFormed.word w = true :=
  List.any_eq_true.2 ⟨(m, k), hm, by simpa using h⟩

/-- A mask acts on the opcode byte and on the argument apart. -/
theorem commandWord_and (op k : Byte) (arg m : Val) : commandWord op arg &&& (k ++ m) = (op &&& k) ++ (arg &&& m) :=
  BitVec.and_append

/-- The operand of format FB lies outside the mask. -/
theorem argFB_masked (b : BitVec 8) : argFB b &&& (0xFFFF#16 ++ 0x00#8) = 0#24 := by
  rw [argFB, BitVec.and_append]; simp

/-- The operands of format FP lie outside the mask. -/
theorem argFP_masked (a b : BitVec 8) : argFP a b &&& (0xFF#8 ++ 0x00#8 ++ 0x00#8) = 0#24 := by
  rw [argFP, BitVec.and_append, BitVec.and_append]; simp

/-- The operand of format FI lies outside the mask. -/
theorem argFI_masked (i : BitVec 16) : argFI i &&& (0xFF#8 ++ 0x0000#16) = 0#24 := by
  rw [argFI, BitVec.and_append]; simp

/-- The operands of format FC lie outside the mask. -/
theorem argFC_masked (ver : BitVec 6) (ecl : BitVec 2) : argFC ver ecl &&& 0xFFFCC0#24 = 0#24 := by
  revert ver ecl; decide +kernel

/-- The word of a command of format FB meets the row of its opcode. -/
theorem word_FB (op : Byte) (b : BitVec 8) (hm : (commandWord op 0#24, 0xFFFFFF00#32) ∈ WellFormed.matchMask) :
    WellFormed.word (commandWord op (argFB b)) = true := by
  refine word_of_row _ _ _ hm ?_
  have h := commandWord_and op 0xFF#8 (argFB b) (0xFFFF#16 ++ 0x00#8)
  rw [argFB_masked, show op &&& 0xFF#8 = op from BitVec.and_allOnes] at h
  exact h

/-- The word of a command of format FP meets the row of its opcode. -/
theorem word_FP (op : Byte) (a b : BitVec 8) (hm : (commandWord op 0#24, 0xFFFF0000#32) ∈ WellFormed.matchMask) :
    WellFormed.word (commandWord op (argFP a b)) = true := by
  refine word_of_row _ _ _ hm ?_
  have h := commandWord_and op 0xFF#8 (argFP a b) (0xFF#8 ++ 0x00#8 ++ 0x00#8)
  rw [argFP_masked, show op &&& 0xFF#8 = op from BitVec.and_allOnes] at h
  exact h

/-- The word of a command of format FI meets the row of its opcode. -/
theorem word_FI (op : Byte) (i : BitVec 16) (hm : (commandWord op 0#24, 0xFFFF0000#32) ∈ WellFormed.matchMask) :
    WellFormed.word (commandWord op (argFI i)) = true := by
  refine word_of_row _ _ _ hm ?_
  have h := commandWord_and op 0xFF#8 (argFI i) (0xFF#8 ++ 0x0000#16)
  rw [argFI_masked, show op &&& 0xFF#8 = op from BitVec.and_allOnes] at h
  exact h

/-- The word of `CFG` meets its row. -/
theorem word_FC (ver : BitVec 6) (ecl : BitVec 2) : WellFormed.word (commandWord 0x02#8 (argFC ver ecl)) = true := by
  refine word_of_row _ 0x02000000#32 0xFFFFFCC0#32 (by decide) ?_
  have h := commandWord_and 0x02#8 0xFF#8 (argFC ver ecl) 0xFFFCC0#24
  rw [argFC_masked] at h
  exact h

/-- The word of the command meets the columns of R44. -/
def EncodeWellFormed.Statement (i : Instr) : Prop := WellFormed.word (encode i) = true

theorem EncodeWellFormed.nop : EncodeWellFormed.Statement .nop := show WellFormed.word _ = true by decide
theorem EncodeWellFormed.clr : EncodeWellFormed.Statement .clr := show WellFormed.word _ = true by decide
theorem EncodeWellFormed.cfg (ver : BitVec 6) (ecl : BitVec 2) : EncodeWellFormed.Statement (.cfg ver ecl) := word_FC ver ecl
theorem EncodeWellFormed.rdstat : EncodeWellFormed.Statement .rdstat := show WellFormed.word _ = true by decide
theorem EncodeWellFormed.rdpar (k : BitVec 8) : EncodeWellFormed.Statement (.rdpar k) := word_FB _ k (by decide)
theorem EncodeWellFormed.gfmul (a b : BitVec 8) : EncodeWellFormed.Statement (.gfmul a b) := word_FP _ a b (by decide)
theorem EncodeWellFormed.gfexp (i : BitVec 8) : EncodeWellFormed.Statement (.gfexp i) := word_FB _ i (by decide)
theorem EncodeWellFormed.gflog (a : BitVec 8) : EncodeWellFormed.Statement (.gflog a) := word_FB _ a (by decide)
theorem EncodeWellFormed.genp (k : BitVec 8) : EncodeWellFormed.Statement (.genp k) := word_FB _ k (by decide)
theorem EncodeWellFormed.rsraw (k : BitVec 8) : EncodeWellFormed.Statement (.rsraw k) := word_FB _ k (by decide)
theorem EncodeWellFormed.rsblks : EncodeWellFormed.Statement .rsblks := show WellFormed.word _ = true by decide
theorem EncodeWellFormed.ilv : EncodeWellFormed.Statement .ilv := show WellFormed.word _ = true by decide
theorem EncodeWellFormed.layout : EncodeWellFormed.Statement .layout := show WellFormed.word _ = true by decide
theorem EncodeWellFormed.place : EncodeWellFormed.Statement .place := show WellFormed.word _ = true by decide
theorem EncodeWellFormed.run : EncodeWellFormed.Statement .run := show WellFormed.word _ = true by decide
theorem EncodeWellFormed.pushd (b : BitVec 8) : EncodeWellFormed.Statement (.pushd b) := word_FB _ b (by decide)
theorem EncodeWellFormed.rddc (i : BitVec 16) : EncodeWellFormed.Statement (.rddc i) := word_FI _ i (by decide)
theorem EncodeWellFormed.rdec (i : BitVec 16) : EncodeWellFormed.Statement (.rdec i) := word_FI _ i (by decide)
theorem EncodeWellFormed.rdcw (i : BitVec 16) : EncodeWellFormed.Statement (.rdcw i) := word_FI _ i (by decide)
theorem EncodeWellFormed.rdgen (i : BitVec 16) : EncodeWellFormed.Statement (.rdgen i) := word_FI _ i (by decide)
theorem EncodeWellFormed.rdmod (i : BitVec 16) : EncodeWellFormed.Statement (.rdmod i) := word_FI _ i (by decide)

end Sys2Proof.Laws
end

