-- ==== Sys2Proof/Laws/Tables.lean ====
section
/-! SUPPORT. What a symbol of the tables is like (R71 to R75, R85, R91), by evaluation over every version and level. -/

namespace Sys2Proof.Machine

/-- What is true of every symbol of the tables. -/
def symbolSound (ver : BitVec 6) (p : Symbol) : Prop :=
  p.ver = ver.toNat ∧ 1 ≤ p.ver ∧ p.ver ≤ 40 ∧ p.n = 4 * p.ver + 17 ∧
  1 ≤ p.b ∧ p.b ≤ 81 ∧ 7 ≤ p.e ∧ p.e ≤ 30 ∧ p.e + 9 ≤ p.t / p.b ∧ p.b * p.e ≤ 2430 ∧ p.b * p.e < p.t ∧
  p.t ≤ 3706 ∧ p.t - p.b * p.e ≤ 2956 ∧ p.rem < 8

/-- There is a symbol exactly for the versions 1 to 40, at every level. -/
theorem symbolOf_isSome (ver : BitVec 6) (ecl : BitVec 2) :
    (symbolOf ver ecl).isSome = decide (1 ≤ ver.toNat ∧ ver.toNat ≤ 40) := by
  revert ver ecl; decide +kernel

theorem symbolOf_sound (ver : BitVec 6) (ecl : BitVec 2) (p : Symbol) (h : symbolOf ver ecl = some p) :
    symbolSound ver p := by
  have all : ∀ (v : BitVec 6) (l : BitVec 2), ∀ q ∈ symbolOf v l, symbolSound v q := by
    unfold symbolSound; decide +kernel
  exact all ver ecl p (by simp [h])

/-- A legal version has a symbol. -/
theorem exists_symbolOf (ver : BitVec 6) (ecl : BitVec 2) (h1 : 1 ≤ ver.toNat) (h2 : ver.toNat ≤ 40) :
    ∃ p, symbolOf ver ecl = some p :=
  Option.isSome_iff_exists.1 (by rw [symbolOf_isSome]; simp [h1, h2])

/-- The grid of a symbol fits the three grid spaces (R5). -/
theorem symbolOf_grid_fits (ver : BitVec 6) (ecl : BitVec 2) (p : Symbol) (h : symbolOf ver ecl = some p) :
    p.n * p.n ≤ gridCap := by
  obtain ⟨-, -, h40, hn, -⟩ := symbolOf_sound ver ecl p h
  have : p.n ≤ 177 := by omega
  exact Nat.mul_le_mul this this

/-- The rows that a symbol comes from, and the checks they passed, under well-formed parameters. -/
theorem symbolWith_rows (params : Params) (ver : BitVec 6) (ecl : BitVec 2) (p : Symbol)
    (hw : paramsWellFormed params = true) (hp : symbolWith params ver ecl = some p) :
    1 ≤ ver.toNat ∧ ver.toNat ≤ vMax ∧ alignWellFormed ver.toNat p.align = true ∧
    entryWellFormed p.t (p.e, p.b) = true ∧
    p = { ver := ver.toNat, n := gridSide ver.toNat, t := unreservedTotal ver.toNat p.align.length / 8
          rem := unreservedTotal ver.toNat p.align.length % 8, b := p.b, e := p.e, align := p.align
          sepTag := params.sepTag } := by
  simp only [paramsWellFormed, Bool.and_eq_true, decide_eq_true_eq, List.all_eq_true, List.mem_range] at hw
  obtain ⟨⟨⟨hb, -⟩, -⟩, hv⟩ := hw
  unfold symbolWith at hp
  split at hp
  · cases hp
  · rename_i h0
    split at hp
    · rename_i row align hrow halign
      have hlt : ver.toNat - 1 < vMax := hb ▸ (List.getElem?_eq_some_iff.1 hrow).1
      have hv := hv (ver.toNat - 1) hlt
      rw [Nat.sub_add_cancel (by omega), versionWellFormed, hrow, halign] at hv
      simp only [Bool.and_eq_true, List.all_eq_true] at hv
      unfold symbolFromRow at hp
      split at hp
      · cases hp
      · rename_i e b he
        cases hp
        exact ⟨by omega, by omega, hv.1.2, hv.2 _ (List.mem_of_getElem? he), rfl⟩
    · cases hp

end Sys2Proof.Machine
end

