-- ==== Sys2Proof/Machine/Assembly.lean ====
section
/-! DEFINITION. The textual form of a command (R47) and the pseudo-commands, each a fixed expansion (R48). Text only: the block
sees words. -/

namespace Sys2Proof.Machine

/-- R47: the letter of a level (0, 1, 2, 3 for L, M, Q, H). -/
def levelLetter (ecl : BitVec 2) : String :=
  if ecl = 0#2 then "L" else if ecl = 1#2 then "M" else if ecl = 2#2 then "Q" else "H"

/-- A number in decimal. -/
def decimal (n : Nat) : String := Nat.repr n

/-- R47: the mnemonic in capitals, then the operands, separated by commas, from the high bits to the low; `CFG` is written
`CFG ver, lvl`. -/
def assemblyText : Instr → String
  | .nop => "NOP"
  | .clr => "CLR"
  | .cfg ver ecl => "CFG " ++ decimal ver.toNat ++ ", " ++ levelLetter ecl
  | .rdstat => "RDSTAT"
  | .rdpar k => "RDPAR " ++ decimal k.toNat
  | .gfmul a b => "GFMUL " ++ decimal a.toNat ++ ", " ++ decimal b.toNat
  | .gfexp i => "GFEXP " ++ decimal i.toNat
  | .gflog a => "GFLOG " ++ decimal a.toNat
  | .genp k => "GENP " ++ decimal k.toNat
  | .rsraw k => "RSRAW " ++ decimal k.toNat
  | .rsblks => "RSBLKS"
  | .ilv => "ILV"
  | .layout => "LAYOUT"
  | .place => "PLACE"
  | .run => "RUN"
  | .pushd b => "PUSHD " ++ decimal b.toNat
  | .rddc i => "RDDC " ++ decimal i.toNat
  | .rdec i => "RDEC " ++ decimal i.toNat
  | .rdcw i => "RDCW " ++ decimal i.toNat
  | .rdgen i => "RDGEN " ++ decimal i.toNat
  | .rdmod i => "RDMOD " ++ decimal i.toNat

/-- R48 `LOADD b0, ..., bn`. -/
def expandLoadd (bytes : List Byte) : List Instr := bytes.map .pushd

/-- R48 `RDCELL r, c`, with the version of the nearest `CFG` before it in the text. -/
def expandRdcell (ver r c : Nat) : List Instr := [.rdmod (BitVec.ofNat 16 (r * (4 * ver + 17) + c))]

/-- R48 `ENCODE ver, lvl, b0, ..., bn`. -/
def expandEncode (ver : BitVec 6) (ecl : BitVec 2) (bytes : List Byte) : List Instr :=
  .cfg ver ecl :: expandLoadd bytes ++ [.run]

/-- R48 `RSE k, b0, ..., bn`. -/
def expandRse (k : BitVec 8) (bytes : List Byte) : List Instr := .clr :: expandLoadd bytes ++ [.rsraw k]

end Sys2Proof.Machine
end

