-- ==== Sys2Proof/Tests/Slice0.lean ====
section
/-! SUPPORT. The model's own tests. Expected values are taken from `95_test_vectors.md` or the examples of the rules (named in
each comment). Then one witness for every obligation that has hypotheses. -/

namespace Sys2Proof.Tests

open Sys2Proof.Machine Sys2Proof.Safety

/-! ## Helpers -/

/-- The response that an outcome leaves on the port. -/
def respOf : Result → Option Word
  | .next t => t.resp
  | _ => none

/-- A test of the next state. -/
def nextMeets (r : Result) (q : State → Bool) : Bool :=
  match r with
  | .next t => q t
  | _ => false

/-- The data codewords of V-RS-1. -/
def data1M : List Byte :=
  [0x10#8, 0x20#8, 0x0C#8, 0x56#8, 0x61#8, 0x80#8, 0xEC#8, 0x11#8, 0xEC#8, 0x11#8, 0xEC#8, 0x11#8, 0xEC#8, 0x11#8,
   0xEC#8, 0x11#8]

/-- The error-correction codewords of V-RS-1. -/
def ec1M : List Byte := [0xA5#8, 0x24#8, 0xD4#8, 0xC1#8, 0xED#8, 0x36#8, 0xC7#8, 0x87#8, 0x2C#8, 0x55#8]

/-- After a `CFG` of version `v` and level `l`. -/
def configured (v : BitVec 6) (l : BitVec 2) : State := { State.reset with ver := v, ecl := l, cfgv := true }

/-- After pushing some bytes. -/
def pushed (bytes : List Byte) (s : State) : State :=
  { s with dc := numbered 0 bytes, dclen := BitVec.ofNat 12 bytes.length }

/-- Version 1, level M with the data of V-RS-1. -/
def pushed1M : State := pushed data1M (configured 1#6 1#2)

/-- The same after `RSBLKS`. -/
def encoded1M : State := { pushed1M with ec := numbered 0 ec1M, eclen := 10#12, ecv := true }

/-- Version 1 with codewords (the first byte 0x10, the others 0) and a record that reserves cell 0 only. -/
def placeable : State :=
  { configured 1#6 1#2 with
    cw := numbered 0 (0x10#8 :: List.replicate 25 0x00#8), cwv := true, layv := true
    rsvtag := numbered 0 (Tag.finder :: List.replicate 440 Tag.none) }

/-! ## Decoding: V-ENC-1 -/

theorem test_decode_nop : decode 0x00000000#32 = .wellFormed .nop := by decide
theorem test_decode_clr : decode 0x01000000#32 = .wellFormed .clr := by decide
theorem test_decode_cfg : decode 0x02000328#32 = .wellFormed (.cfg 40#6 3#2) := by decide
theorem test_decode_cfg_5H : decode 0x02000305#32 = .wellFormed (.cfg 5#6 3#2) := by decide
theorem test_decode_rdstat : decode 0x03000000#32 = .wellFormed .rdstat := by decide
theorem test_decode_rdpar : decode 0x0400000F#32 = .wellFormed (.rdpar 15#8) := by decide
theorem test_decode_gfmul : decode 0x10000280#32 = .wellFormed (.gfmul 0x02#8 0x80#8) := by decide
theorem test_decode_gfexp : decode 0x110000FE#32 = .wellFormed (.gfexp 254#8) := by decide
theorem test_decode_gflog : decode 0x120000FF#32 = .wellFormed (.gflog 255#8) := by decide
theorem test_decode_genp : decode 0x1300001E#32 = .wellFormed (.genp 30#8) := by decide
theorem test_decode_rsraw : decode 0x1400000A#32 = .wellFormed (.rsraw 10#8) := by decide
theorem test_decode_rsblks : decode 0x15000000#32 = .wellFormed .rsblks := by decide
theorem test_decode_ilv : decode 0x20000000#32 = .wellFormed .ilv := by decide
theorem test_decode_layout : decode 0x30000000#32 = .wellFormed .layout := by decide
theorem test_decode_place : decode 0x38000000#32 = .wellFormed .place := by decide
theorem test_decode_run : decode 0x3F000000#32 = .wellFormed .run := by decide
theorem test_decode_pushd : decode 0x400000EC#32 = .wellFormed (.pushd 236#8) := by decide
theorem test_decode_rddc : decode 0x41000B8B#32 = .wellFormed (.rddc 2955#16) := by decide
theorem test_decode_rdec : decode 0x4200097D#32 = .wellFormed (.rdec 2429#16) := by decide
theorem test_decode_rdcw : decode 0x43000E79#32 = .wellFormed (.rdcw 3705#16) := by decide
theorem test_decode_rdgen : decode 0x4400001E#32 = .wellFormed (.rdgen 30#16) := by decide
theorem test_decode_rdmod : decode 0x45007A60#32 = .wellFormed (.rdmod 31328#16) := by decide

/-- V-ENC-2: unassigned opcodes, one after each family. -/
theorem test_illegal_words :
    [0x05000000#32, 0xFF000000#32, 0x16000000#32, 0x21000000#32, 0x31000000#32, 0x39000000#32, 0x46000000#32].map
      (fun w => (decode w, WellFormed.knownOp w)) = List.replicate 7 (.illegal, false) := by decide

/-- V-ENC-2: one word with a reserved bit set for each format. -/
theorem test_malformed_words :
    [0x00000001#32, 0x3F000001#32, 0x03800000#32, 0x40000100#32, 0x10010000#32, 0x45010000#32, 0x02010101#32,
      0x02000041#32].map (fun w => (decode w, WellFormed.knownOp w, WellFormed.word w)) =
      List.replicate 8 (.malformed, true, false) := by decide

/-- V-ENC-3: the opcode before the reserved bits, the reserved bits before the version. -/
theorem test_decode_priority :
    respOf (runWord 0x05FFFFFF#32 State.reset) = some 0x01000000#32 ∧
    respOf (runWord 0x02000440#32 State.reset) = some 0x02000000#32 ∧
    respOf (runWord 0x1400FF00#32 State.reset) = some 0x02000000#32 := by decide

/-! The check of `WellFormed.lean` refuses an ill-formed word of every row: the lowest reserved bit set. -/

/-- Each row of the columns, its lowest reserved bit set. -/
theorem test_wellFormed_refuses_each_row :
    [0x00000001#32, 0x01000001#32, 0x02000040#32, 0x03000001#32, 0x04000100#32, 0x10010000#32, 0x11000100#32,
      0x12000100#32, 0x13000100#32, 0x14000100#32, 0x15000001#32, 0x20000001#32, 0x30000001#32, 0x38000001#32,
      0x3F000001#32, 0x40000100#32, 0x41010000#32, 0x42010000#32, 0x43010000#32, 0x44010000#32, 0x45010000#32].map
      WellFormed.word = List.replicate 21 false := by decide

/-- A word with an unassigned opcode has no row. -/
theorem test_wellFormed_refuses_unknown : WellFormed.word 0x46000000#32 = false := by decide

/-! ## Assembly text: the examples of R47, and `RDCELL 13, 8` of version 1 (R48, R101) -/

theorem test_assembly_text :
    [assemblyText (.cfg 5#6 3#2), assemblyText (.pushd 0xEC#8), assemblyText (.gfmul 0x02#8 0x80#8),
      assemblyText (.rdmod 428#16), assemblyText .run] =
      ["CFG 5, H", "PUSHD 236", "GFMUL 2, 128", "RDMOD 428", "RUN"] := by decide +kernel

theorem test_pseudo_commands :
    expandRdcell 1 13 8 = [.rdmod 281#16] ∧
    (expandEncode 1#6 1#2 [0x10#8, 0x20#8]).map encode =
      [0x02000101#32, 0x40000010#32, 0x40000020#32, 0x3F000000#32] ∧
    (expandRse 4#8 [0x12#8]).map encode = [0x01000000#32, 0x40000012#32, 0x14000004#32] := by decide

/-! ## The step and the host's placing of a word -/

/-- R58's example, placed by `withFetchWord` and run by the next step. -/
theorem test_step_runs_placed_word :
    respOf (step (State.reset.withFetchWord 32 0x1000B40D)) = some 0x00000097#32 := by decide

/-- R150, U10: a reset abandons a command; no response. -/
theorem test_reset_abandons_command :
    nextMeets (step { pushed1M with inputs := [.resetDuring 0x3F000000#32] })
      (fun t => decide (t = State.reset)) = true := by decide +kernel

/-! ## System commands -/

/-- R115. -/
theorem test_nop : exec .nop pushed1M = .next { pushed1M with resp := some 0x00000000#32 } := rfl

/-- R116: `FERR` and `DCLEN` are cleared. -/
theorem test_clr : exec .clr { pushed1M with ferr := 0x07#8 } = .next { State.reset with resp := some 0x00000000#32 } :=
  rfl

/-- R117's example: `CFG 5, H` answers 46. -/
theorem test_cfg_5H : respOf (exec (.cfg 5#6 3#2) State.reset) = some 0x0000002E#32 := by decide +kernel

/-- V-ENC-2: version 63 is `E_BADCFG` and the earlier configuration stays. -/
theorem test_cfg_bad : exec (.cfg 63#6 0#2) pushed1M =
    .next { pushed1M with ferr := 0x03#8, resp := some 0x03000000#32 } := rfl

/-- R118's example: `CFGV`, `ECV`, `CWV`, `LAYV`, `PLV` set. -/
theorem test_rdstat :
    respOf (exec .rdstat { configured 1#6 1#2 with ecv := true, cwv := true, layv := true, plv := true }) =
      some 0x0000003D#32 := by decide

/-- V-RS-CMD: `FERR` in bits 15:8, `RAWV` in bit 1. -/
theorem test_rdstat_ferr : respOf (exec .rdstat { State.reset with rawv := true, ferr := 0x04#8 }) =
    some 0x00000402#32 := by decide

/-- R119's example: selectors 0 to 9 after `CFG 5, H`. -/
theorem test_rdpar_5H :
    (List.range 10).map (fun k => respOf (exec (.rdpar (BitVec.ofNat 8 k)) (configured 5#6 3#2))) =
      [37, 134, 46, 4, 22, 2, 2, 11, 7, 1369].map (fun v => some (BitVec.ofNat 32 v)) := by decide +kernel

/-- V-ENC-3: `RDPAR 16` is `E_RANGE`, `RDPAR 0` is `E_NOCFG` after reset. -/
theorem test_rdpar_errors :
    respOf (exec (.rdpar 16#8) State.reset) = some 0x08000000#32 ∧
    respOf (exec (.rdpar 0#8) State.reset) = some 0x05000000#32 := by decide

/-! ## Field and Reed-Solomon commands -/

/-- V-GF-1. -/
theorem test_gfmul :
    [respOf (exec (.gfmul 0x80#8 0x02#8) State.reset), respOf (exec (.gfmul 0x53#8 0xCA#8) State.reset),
      respOf (exec (.gfmul 0xFF#8 0xFF#8) State.reset), respOf (exec (.gfmul 0x8E#8 0x02#8) State.reset)] =
      [some 0x0000001D#32, some 0x0000008F#32, some 0x000000E2#32, some 0x00000001#32] := by decide +kernel

/-- V-GF-2. -/
theorem test_gfexp :
    [respOf (exec (.gfexp 8#8) State.reset), respOf (exec (.gfexp 25#8) State.reset),
      respOf (exec (.gfexp 7#8) State.reset), respOf (exec (.gfexp 255#8) State.reset)] =
      [some 0x0000001D#32, some 0x00000003#32, some 0x00000080#32, some 0x08000000#32] := by decide +kernel

/-- V-GF-3. -/
theorem test_gflog :
    [respOf (exec (.gflog 0x01#8) State.reset), respOf (exec (.gflog 0x1D#8) State.reset),
      respOf (exec (.gflog 0x8E#8) State.reset), respOf (exec (.gflog 0x00#8) State.reset)] =
      [some 0x00000000#32, some 0x00000008#32, some 0x000000FE#32, some 0x04000000#32] := by decide +kernel

/-- V-GEN-1: `gen_poly(7)`. -/
theorem test_genp_7 :
    nextMeets (exec (.genp 7#8) State.reset) (fun t => decide (t.gendeg = 7#5 ∧
      readRun .gen t.gen 0 8 = [0x01#8, 0x7F#8, 0x7A#8, 0x9A#8, 0xA4#8, 0x0B#8, 0x44#8, 0x75#8])) = true := by
  decide +kernel

/-- V-GEN-3: degrees 0 and 31. -/
theorem test_genp_errors :
    respOf (exec (.genp 0#8) State.reset) = some 0x04000000#32 ∧
    respOf (exec (.genp 31#8) State.reset) = some 0x04000000#32 := by decide

/-- V-RS-8: the example of R62. -/
theorem test_rsraw :
    nextMeets (exec (.rsraw 4#8) (pushed [0x12#8, 0x34#8, 0x56#8] State.reset)) (fun t => decide (t.rawv = true ∧
      t.resp = some 0x00000004#32 ∧ readRun .ec t.ec 0 4 = [0x37#8, 0xE6#8, 0x78#8, 0xD9#8])) = true := by
  decide +kernel

/-- V-RS-CMD: an empty block. -/
theorem test_rsraw_empty : respOf (exec (.rsraw 4#8) State.reset) = some 0x04000000#32 := by decide

/-- V-RS-1: the example of R63. -/
theorem test_rsblks :
    nextMeets (exec .rsblks pushed1M) (fun t => decide (t.ecv = true ∧ t.resp = some 0x0000000A#32 ∧
      readRun .ec t.ec 0 10 = ec1M)) = true := by decide +kernel

/-- R63: one codeword short is `E_LEN`. -/
theorem test_rsblks_short : respOf (exec .rsblks (pushed (data1M.take 15) (configured 1#6 1#2))) =
    some 0x06000000#32 := by decide +kernel

/-! ## Interleaver and grid commands -/

/-- R79's example: one block, so data then error correction. -/
theorem test_ilv :
    nextMeets (exec .ilv encoded1M) (fun t => decide (t.cwv = true ∧ t.resp = some 0x0000001A#32 ∧
      readRun .cw t.cw 0 26 = data1M ++ ec1M)) = true := by decide +kernel

/-- V-ILV-1: version 5, level H, the data order of the longer blocks at the end and the first EC row (`DC[x]` and `EC[x]` are
`x` here). -/
theorem test_interleave_5H :
    (symbolOf 5#6 3#2).map (fun p =>
      ((interleave p (BitVec.ofNat 8) (BitVec.ofNat 8)).drop 40).take 12) =
      some ([10, 21, 32, 44, 33, 45, 0, 22, 44, 66, 1, 23].map (BitVec.ofNat 8)) := by decide +kernel

/-- V-LAY-1 and the example of R125: cells (0, 0), (0, 8), (13, 8), (20, 20) and (6, 9) of version 1. -/
theorem test_layout :
    nextMeets (exec .layout (configured 1#6 1#2)) (fun t => decide (t.layv = true ∧ t.resp = some 0x000000D0#32 ∧
      [0, 8, 281, 440, 135].map (fun i => cellVal (readTag t.rsvtag i) (readBit .rsvdark t.rsvdark i)
        (readBit .data t.data i)) = [0x07#24, 0x18#24, 0x1F#24, 0x00#24, 0x0C#24])) = true := by decide +kernel

/-- V-LAY-2, V-LAY-3: the alignment pattern of version 2 around (18, 18), and one that version 7 puts on its timing line. -/
theorem test_layout_alignment :
    (symbolOf 2#6 0#2).map (fun p => [layoutCell p 18 18, layoutCell p 17 18, layoutCell p 16 18, layoutCell p 16 15]) =
      some [⟨.alignment, true⟩, ⟨.alignment, false⟩, ⟨.alignment, true⟩, ⟨.none, false⟩] ∧
    (symbolOf 7#6 0#2).map (fun p => [layoutCell p 6 22, layoutCell p 6 21, layoutCell p 6 19, layoutCell p 6 6]) =
      some [⟨.alignment, true⟩, ⟨.alignment, false⟩, ⟨.timing, false⟩, ⟨.finder, true⟩] := by decide +kernel

/-! Parameters (R5, U15, U16). -/

/-- The default tables with the other admissible `SEP_TAG` (D11). -/
def finderParams : Params := { defaultParams with sepTag := .finder }

/-- Replacement rows that R73 and R92 admit: version 5 with a third centre coordinate and, as `T` falls to 120, a shorter H. -/
def spareParams : Params :=
  { defaultParams with
    blocks := blockTable.set 4 [(26, 1), (24, 2), (18, 4), (20, 4)], align := alignTable.set 4 [6, 18, 30] }

/-- A table that breaks R92: two coordinates less than 12 apart. -/
def crowdedParams : Params := { defaultParams with align := alignTable.set 4 [6, 16, 30] }

/-- A table that breaks R73: no block (`B = 0`, the example of U15). -/
def blocklessParams : Params := { defaultParams with blocks := blockTable.set 0 [(7, 0), (10, 1), (13, 1), (17, 1)] }

theorem test_params_check :
    [defaultParams, finderParams, spareParams, crowdedParams, blocklessParams].map paramsWellFormed =
      [true, true, true, false, false] := by decide +kernel

/-- D11: with `SEP_TAG = Finder`, `LAYOUT` then `RDMOD` show tag 1 on the separator cell (7, 0), still light. -/
theorem test_layout_finder_tag :
    nextMeets (execWith finderParams .layout (configured 1#6 1#2)) (fun t => decide (t.resp = some 0x000000D0#32 ∧
      cellVal (readTag t.rsvtag 147) (readBit .rsvdark t.rsvdark 147) (readBit .data t.data 147) = 0x04#24)) = true := by
  decide +kernel

/-- U15: ill-formed parameters are refused. -/
theorem test_illFormed_refused : stepWith blocklessParams State.reset = .refused .illFormedParameters :=
  if_neg (by decide +kernel)

/-- R71: fewer unreserved cells with more patterns; by R102, `37*37 - 223 - (42 - 10) - 150 = 964 = 8*120 + 4`. -/
theorem test_derived_total :
    (symbolWith spareParams 5#6 0#2).map (fun p => (p.t, p.rem)) = some (120, 4) := by decide +kernel

/-- R110: without a layout. -/
theorem test_place_refused : respOf (exec .place { placeable with layv := false }) = some 0x07000000#32 := by decide

/-- R110's example: `CW[0] = 0x10` puts 0, 0, 0, 1 at (20, 20), (20, 19), (19, 20), (19, 19) and 0 at the next two cells. -/
theorem test_place_stream :
    (placementCells 21 (readTag placeable.rsvtag)).take 6 = [440, 439, 419, 418, 398, 397] ∧
    (List.range 6).map (streamBit 26 (readByte .cw placeable.cw)) = [false, false, false, true, false, false] := by
  decide +kernel

/-- R111: `RUN` answers `T` and sets the flags of its four stages. -/
theorem test_run_flags :
    nextMeets (exec .run pushed1M) (fun t => decide (t.resp = some 0x0000001A#32 ∧ t.ecv = true ∧ t.cwv = true ∧
      t.layv = true ∧ t.plv = true ∧ t.rawv = false ∧ t.gendeg = 10#5 ∧ t.eclen = 10#12)) = true := by decide +kernel

/-- P6: `RUN` with no codeword pushed is `E_LEN`. -/
theorem test_run_empty : respOf (exec .run (configured 1#6 1#2)) = some 0x06000000#32 := by decide +kernel

/-! ## Data ports -/

/-- R120's example. -/
theorem test_pushd :
    nextMeets (exec (.pushd 0x40#8) State.reset) (fun t => decide (t.resp = some 0x00000001#32 ∧ t.dclen = 1#12 ∧
      bufGet t.dc 0 = some 0x40#8)) = true := by decide

/-- V-SYS-2: the buffer is full at 2956. -/
theorem test_pushd_full : respOf (exec (.pushd 0x40#8) { State.reset with dclen := 2956#12 }) = some 0x09000000#32 := by
  decide

/-- R121's example: index 0 reads, index 1 is `E_RANGE`. -/
theorem test_rddc :
    respOf (exec (.rddc 0#16) (pushed [0x40#8] State.reset)) = some 0x00000040#32 ∧
    respOf (exec (.rddc 1#16) (pushed [0x40#8] State.reset)) = some 0x08000000#32 := by decide

/-- R122's example, and the window. -/
theorem test_rdec :
    respOf (exec (.rdec 0#16) encoded1M) = some 0x000000A5#32 ∧
    respOf (exec (.rdec 10#16) encoded1M) = some 0x08000000#32 := by decide

/-- V-ENC-3: `RDEC 5000` after reset is `E_NOTREADY`. -/
theorem test_rdec_notReady : respOf (exec (.rdec 5000#16) State.reset) = some 0x07000000#32 := by decide

/-- R123: the window is `T`. -/
theorem test_rdcw :
    respOf (exec (.rdcw 0#16) placeable) = some 0x00000010#32 ∧
    respOf (exec (.rdcw 26#16) placeable) = some 0x08000000#32 := by decide +kernel

/-- V-GEN-3: `RDGEN` of `gen_poly(2)` and its window. -/
theorem test_rdgen :
    respOf (exec (.rdgen 1#16) { State.reset with gen := [(0, 0x01#8), (1, 0x03#8), (2, 0x02#8)], gendeg := 2#5 }) =
      some 0x00000003#32 ∧
    respOf (exec (.rdgen 3#16) { State.reset with gen := [(0, 0x01#8), (1, 0x03#8), (2, 0x02#8)], gendeg := 2#5 }) =
      some 0x08000000#32 ∧
    respOf (exec (.rdgen 0#16) State.reset) = some 0x07000000#32 := by decide

/-- R125: tag in bits 4:2, dark flag in bit 1, colour in bit 0. -/
theorem test_rdmod :
    respOf (exec (.rdmod 0#16) { configured 1#6 1#2 with
      layv := true, data := [(0, true)], rsvtag := [(0, .darkModule)], rsvdark := [(0, true)] }) =
      some 0x0000001F#32 ∧
    respOf (exec (.rdmod 441#16) { configured 1#6 1#2 with layv := true }) = some 0x08000000#32 := by decide +kernel

/-! ## Witnesses: every obligation with hypotheses is met by the states and operands below, clause by clause -/

theorem next_of_nextMeets (r : Result) (q : State → Bool) (h : nextMeets r q = true) : ∃ t, r = .next t ∧ q t = true := by
  unfold nextMeets at h
  split at h
  · exact ⟨_, rfl, h⟩
  · cases h

/-- A command that succeeds on a state, by evaluation of the status. -/
theorem succeeds (i : Instr) (s : State) (h : nextMeets (exec i s) (fun t => statusOf t == 0#8) = true) :
    ∃ t, exec i s = .next t ∧ statusOf t = 0#8 := by
  obtain ⟨t, ht, hq⟩ := next_of_nextMeets _ _ h
  exact ⟨t, ht, by simpa using hq⟩

/-- After V-RS-5: `CLR`, `PUSHD 0x01`, `RSRAW 2`; the host presents `RDEC 1` next. -/
def rawState : State :=
  { pushed [0x01#8] State.reset with
    gen := [(0, 0x01#8), (1, 0x03#8), (2, 0x02#8)], gendeg := 2#5, ec := [(0, 0x03#8), (1, 0x02#8)], eclen := 2#12,
    rawv := true, inputs := [.command 0x42000001#32] }

/-- The symbol 1-M of R74. -/
def symbol1M : Symbol := ⟨1, 21, 26, 0, 1, 10, [], .separator⟩

/-- The symbol 5-H of R74. -/
def symbol5H : Symbol := ⟨5, 37, 134, 7, 4, 22, [6, 30], .separator⟩

theorem symbolOf_1M : symbolOf 1#6 1#2 = some symbol1M := by decide +kernel

theorem symbolOf_5H : symbolOf 5#6 3#2 = some symbol5H := by decide +kernel

theorem rawState_inv : Inv rawState where
  unconfigured := by decide
  version := by intro h; exact absurd h (by decide)
  blocks := by intro h; exact absurd h (by decide)
  raw := by decide
  codewords := by decide
  placed := by decide
  dcBound := by decide
  ecBound := by decide
  genBound := by decide
  genLead := by decide

theorem rawState_memory : Memory.wf rawState := by decide +kernel

theorem rawState_windows : WindowsDefined rawState where
  dc := by decide
  ec := by decide
  gen := by intro _; decide
  cw := by intro h; exact absurd h (by decide)
  grid := by intro h; exact absurd h (by decide)

theorem rawState_flags : FlagsTruthful rawState where
  rawv := by intro _; decide +kernel
  ecv := by intro h; exact absurd h (by decide)
  cwv := by intro h; exact absurd h (by decide)
  layv := by intro h; exact absurd h (by decide)
  plv := by intro h; exact absurd h (by decide)

/-- Every `EncodedAs`: the largest operand is accepted, the lowest reserved bit is not. -/
theorem witness_EncodedAs :
    (0x000000#24 &&& 0xFFFFFF#24 = 0#24 ∧ 0x000001#24 &&& 0xFFFFFF#24 ≠ 0#24) ∧
    (0x00033F#24 &&& 0xFFFCC0#24 = 0#24 ∧ 0x000040#24 &&& 0xFFFCC0#24 ≠ 0#24 ∧ 0x000400#24 &&& 0xFFFCC0#24 ≠ 0#24) ∧
    (0x0000FF#24 &&& 0xFFFF00#24 = 0#24 ∧ 0x000100#24 &&& 0xFFFF00#24 ≠ 0#24) ∧
    (0x00FFFF#24 &&& 0xFF0000#24 = 0#24 ∧ 0x010000#24 &&& 0xFF0000#24 ≠ 0#24) := by decide

theorem witness_ClrRestoresResetState :
    (∃ t, exec .clr { rawState with ferr := 0x07#8 } = .next t ∧ ({ rawState with ferr := 0x07#8 } : State).ferr ≠ 0#8 ∧
      t.ferr = 0#8 ∧ t.dclen.toNat < rawState.dclen.toNat) ∧
    (∃ t, exec (.cfg 1#6 0#2) rawState = .next t ∧ t.dclen.toNat < rawState.dclen.toNat) :=
  ⟨⟨_, rfl, by decide, rfl, by decide⟩, ⟨_, rfl, by decide⟩⟩

theorem witness_CfgStartsSymbol :
    (0#6).toNat = 0 ∧ 40 < (41#6).toNat ∧ 40 < (63#6).toNat ∧
    (1 ≤ (1#6).toNat ∧ (1#6).toNat ≤ 40) ∧ (1 ≤ (40#6).toNat ∧ (40#6).toNat ≤ 40) := by decide

theorem witness_RdparReportsParameter :
    16 ≤ (16#8).toNat ∧ 16 ≤ (255#8).toNat ∧ ((9#8).toNat ≤ 9 ∧ State.reset.cfgv = false) ∧
    ((0#8).toNat ≤ 9 ∧ (configured 1#6 0#2).cfgv = true ∧ LegalVersion (configured 1#6 0#2)) ∧
    ((9#8).toNat ≤ 9 ∧ (configured 40#6 3#2).cfgv = true ∧ LegalVersion (configured 40#6 3#2)) := by
  unfold LegalVersion; decide

theorem witness_GfexpAnswersPower : (0#8).toNat ≤ 254 ∧ (254#8).toNat ≤ 254 := by decide

theorem witness_GflogAnswersLogarithm : (1#8) ≠ 0#8 ∧ (255#8) ≠ 0#8 := by decide

theorem witness_GenpBuildsGenerator :
    (0#8).toNat = 0 ∧ 30 < (31#8).toNat ∧ (1 ≤ (1#8).toNat ∧ (1#8).toNat ≤ 30) ∧
    (1 ≤ (30#8).toNat ∧ (30#8).toNat ≤ 30) := by decide

theorem witness_RsrawEncodesAllOfDc :
    (0#8).toNat = 0 ∧ 30 < (31#8).toNat ∧ State.reset.dclen.toNat = 0 ∧
    (1 ≤ (1#8).toNat ∧ (30#8).toNat ≤ 30 ∧ 1 ≤ rawState.dclen.toNat ∧ rawState.dclen.toNat ≤ 2956) ∧
    ({ rawState with dclen := 2956#12 } : State).dclen.toNat ≤ 2956 := by decide

/-- The refusals and the success of `RSBLKS` and of `RUN`: not configured; one codeword short; exactly `D`. -/
theorem witness_RsblksEncodesEveryBlock :
    State.reset.cfgv = false ∧
    (({ pushed1M with dclen := 15#12 } : State).cfgv = true ∧ symbolOf pushed1M.ver pushed1M.ecl = some symbol1M ∧
      ({ pushed1M with dclen := 15#12 } : State).dclen.toNat ≠ symbol1M.t - symbol1M.b * symbol1M.e) ∧
    (pushed1M.cfgv = true ∧ pushed1M.dclen.toNat = symbol1M.t - symbol1M.b * symbol1M.e) :=
  ⟨rfl, ⟨rfl, symbolOf_1M, by decide⟩, rfl, by decide⟩

theorem witness_IlvInterleavesCodewords :
    pushed1M.ecv = false ∧ (encoded1M.ecv = true ∧ symbolOf encoded1M.ver encoded1M.ecl = some symbol1M) :=
  ⟨rfl, rfl, symbolOf_1M⟩

theorem witness_LayoutWritesEveryCell :
    State.reset.cfgv = false ∧ (symbolOf 5#6 0#2 ≠ none ∧ symbolOf 5#6 3#2 = some symbol5H) ∧ ((configured 5#6 3#2).cfgv = true ∧ symbolOf 5#6 3#2 = some symbol5H ∧
      36 < symbol5H.n) :=
  ⟨rfl, ⟨by decide +kernel, symbolOf_5H⟩, rfl, symbolOf_5H, by decide⟩

theorem witness_PlaceWritesStreamBits :
    ({ placeable with cwv := false } : State).cwv = false ∧ ({ placeable with layv := false } : State).layv = false ∧
    (placeable.cwv = true ∧ placeable.layv = true ∧ symbolOf placeable.ver placeable.ecl = some symbol1M) ∧
    (placementCells 21 (readTag placeable.rsvtag))[0]? = some 440 ∧
    0 ∉ placementCells 21 (readTag placeable.rsvtag) := by
  refine ⟨rfl, rfl, ⟨rfl, rfl, symbolOf_1M⟩, by decide +kernel, fun h => ?_⟩
  exact absurd (of_decide_eq_true (List.mem_filter.1 h).2) (by decide)

theorem witness_RunEqualsFourStages :
    State.reset.cfgv = false ∧
    (pushed1M.cfgv = true ∧ symbolOf pushed1M.ver pushed1M.ecl = some symbol1M ∧
      ({ pushed1M with dclen := 17#12 } : State).dclen.toNat ≠ symbol1M.t - symbol1M.b * symbol1M.e ∧
      pushed1M.dclen.toNat = symbol1M.t - symbol1M.b * symbol1M.e) := ⟨rfl, rfl, symbolOf_1M, by decide, by decide⟩

theorem witness_PushdAppendsCodeword :
    2956 ≤ ({ State.reset with dclen := 2956#12 } : State).dclen.toNat ∧
    ({ State.reset with dclen := 2955#12 } : State).dclen.toNat < 2956 ∧ State.reset.dclen.toNat < 2956 := by decide

theorem witness_RddcAnswersElement :
    rawState.dclen.toNat ≤ (1#16).toNat ∧
    ((0#16).toNat < rawState.dclen.toNat ∧ rawState.dclen.toNat ≤ 2956) := by decide

theorem witness_RdecAnswersElement :
    (State.reset.rawv = false ∧ State.reset.ecv = false) ∧
    ((rawState.rawv = true ∨ rawState.ecv = true) ∧ rawState.eclen.toNat ≤ (2#16).toNat) ∧
    ((encoded1M.rawv = true ∨ encoded1M.ecv = true) ∧ (9#16).toNat < encoded1M.eclen.toNat ∧
      encoded1M.eclen.toNat ≤ 2430) := by decide

theorem witness_RdcwAnswersElement :
    State.reset.cwv = false ∧
    (placeable.cwv = true ∧ symbolOf placeable.ver placeable.ecl = some symbol1M ∧ symbol1M.t ≤ (26#16).toNat ∧
      (25#16).toNat < symbol1M.t) := ⟨rfl, rfl, symbolOf_1M, by decide, by decide⟩

theorem witness_RdgenAnswersCoefficient :
    State.reset.gendeg.toNat = 0 ∧
    (1 ≤ rawState.gendeg.toNat ∧ rawState.gendeg.toNat < (3#16).toNat) ∧
    (1 ≤ rawState.gendeg.toNat ∧ (2#16).toNat ≤ rawState.gendeg.toNat ∧ rawState.gendeg.toNat ≤ 30) ∧
    Inv rawState := ⟨rfl, by decide, by decide, rawState_inv⟩

/-- Version 1 after `LAYOUT`. -/
def laidOut1M : State := layoutState symbol1M (configured 1#6 1#2)

theorem laidOut1M_flags : FlagsTruthful laidOut1M where
  rawv := by intro h; exact absurd h (by decide)
  ecv := by intro h; exact absurd h (by decide)
  cwv := by intro h; exact absurd h (by decide)
  layv := by
    intro _ p hp r c hr hc
    obtain rfl : symbol1M = p := Option.some.inj (symbolOf_1M.symm.trans hp)
    have hd : bufGet laidOut1M.data (r * symbol1M.n + c) = some (layoutCell symbol1M r c).dark :=
      bufGet_write_marks symbol1M (·.dark) [] r c hr hc
    have ht : bufGet laidOut1M.rsvtag (r * symbol1M.n + c) = some (layoutCell symbol1M r c).tag :=
      bufGet_write_marks symbol1M (·.tag) [] r c hr hc
    have hk : bufGet laidOut1M.rsvdark (r * symbol1M.n + c) = some (layoutCell symbol1M r c).dark :=
      bufGet_write_marks symbol1M (·.dark) [] r c hr hc
    exact ⟨by rw [readTag, ht, Option.getD_some], by rw [readBit, hk, Option.getD_some],
      fun _ => by rw [readBit, hd, Option.getD_some]⟩
  plv := by intro h; exact absurd h (by decide)

theorem witness_RdmodAnswersCell :
    State.reset.layv = false ∧
    (placeable.layv = true ∧ symbolOf placeable.ver placeable.ecl = some symbol1M ∧
      symbol1M.n * symbol1M.n ≤ (441#16).toNat ∧ (440#16).toNat < symbol1M.n * symbol1M.n) ∧
    (laidOut1M.layv = true ∧ symbolOf laidOut1M.ver laidOut1M.ecl = some symbol1M ∧ FlagsTruthful laidOut1M) :=
  ⟨rfl, ⟨rfl, symbolOf_1M, by decide, by decide⟩, rfl, symbolOf_1M, laidOut1M_flags⟩

theorem witness_WellFormedWordsAreEncodings : decode 0x02000305#32 = .wellFormed (.cfg 5#6 3#2) := by decide

theorem witness_WordsAreSortedAndRefused :
    WellFormed.knownOp 0x46000000#32 = false ∧
    (WellFormed.knownOp 0x02000041#32 = true ∧ WellFormed.word 0x02000041#32 = false) ∧
    WellFormed.word 0x02000328#32 = true := by decide

theorem witness_StepRunsDecodedCommand :
    rawState.inputs = .command 0x42000001#32 :: [] ∧ decode 0x42000001#32 = .wellFormed (.rdec 1#16) ∧
    paramsWellFormed spareParams = true ∧ paramsWellFormed crowdedParams = false :=
  ⟨rfl, by decide, by decide +kernel, by decide +kernel⟩

theorem witness_ResetsGiveResetState :
    ({ rawState with inputs := [.reset] } : State).inputs = .reset :: [] ∧
    ({ rawState with inputs := [.resetDuring 0x3F000000#32] } : State).inputs = .resetDuring 0x3F000000#32 :: [] ∧
    (∃ t, exec (.cfg 1#6 0#2) rawState = .next t ∧ statusOf t = 0#8) ∧ State.reset.inputs = [] :=
  ⟨rfl, rfl, ⟨_, rfl, by decide⟩, rfl⟩

theorem witness_FailureChangesOnlyFerr :
    (∃ t, runWord 0x42000001#32 rawState = .next t ∧ statusOf t = 0#8) ∧
    (∃ t, runWord 0x42000002#32 rawState = .next t ∧ statusOf t = 0x08#8) :=
  ⟨⟨_, rfl, by decide⟩, ⟨_, rfl, by decide⟩⟩

/-- The invariant says nothing of the tables in a state without `ECV`. -/
theorem rawState_invFor (params : Params) : InvFor params rawState where
  unconfigured := rawState_inv.unconfigured
  version := rawState_inv.version
  blocks := by intro h; exact absurd h (by decide)
  raw := rawState_inv.raw
  codewords := rawState_inv.codewords
  placed := rawState_inv.placed
  dcBound := rawState_inv.dcBound
  ecBound := rawState_inv.ecBound
  genBound := rawState_inv.genBound
  genLead := rawState_inv.genLead

theorem rawState_windowsFor (params : Params) : WindowsDefinedFor params rawState where
  dc := rawState_windows.dc
  ec := rawState_windows.ec
  gen := rawState_windows.gen
  cw := by intro h; exact absurd h (by decide)
  grid := by intro h; exact absurd h (by decide)

theorem rawState_flagsFor (params : Params) : FlagsTruthfulFor params rawState where
  rawv := rawState_flags.rawv
  ecv := by intro h; exact absurd h (by decide)
  cwv := by intro h; exact absurd h (by decide)
  layv := by intro h; exact absurd h (by decide)
  plv := by intro h; exact absurd h (by decide)

theorem rawState_stepWith : ∃ t, stepWith finderParams rawState = .next t := ⟨_, if_pos (by decide +kernel)⟩

theorem witness_EveryWordIsAnswered :
    Inv rawState ∧ paramsWellFormed finderParams = true ∧ InvFor finderParams rawState :=
  ⟨rawState_inv, by decide +kernel, rawState_invFor _⟩

theorem witness_StatusesOfEachCommand :
    (∃ t, exec (.gfexp 255#8) rawState = .next t) ∧
    (decode 0x00000001#32 = .malformed ∧ ∃ t, runWord 0x00000001#32 rawState = .next t) ∧
    (decode 0x05000000#32 = .illegal ∧ ∃ t, runWord 0x05000000#32 rawState = .next t) :=
  ⟨⟨_, rfl⟩, ⟨by decide, _, rfl⟩, ⟨by decide, _, rfl⟩⟩

theorem witness_FlagTableHolds :
    (∃ t, exec (.pushd 0x02#8) rawState = .next t ∧ statusOf t = 0#8) ∧
    (∃ t, exec .ilv rawState = .next t ∧ statusOf t ≠ 0#8) := ⟨⟨_, rfl, by decide⟩, ⟨_, rfl, by decide⟩⟩

theorem witness_FirstErrorSticks :
    (∃ t, runWord 0x20000000#32 rawState = .next t ∧ decode 0x20000000#32 ≠ .wellFormed .clr) ∧
    (∃ t, exec .clr rawState = .next t) ∧ (Instr.ilv ≠ .rdstat ∧ ∃ t, exec .ilv rawState = .next t) :=
  ⟨⟨_, rfl, by decide⟩, ⟨_, rfl⟩, by decide, ⟨_, rfl⟩⟩

theorem witness_ReadsAreFreeOthersIdempotent :
    (isRead (.rdec 1#16) = true ∧ ∃ t, exec (.rdec 1#16) rawState = .next t ∧ statusOf t = 0#8) ∧
    (∃ t, exec (.pushd 0x02#8) rawState = .next t ∧ statusOf t = 0#8 ∧
      ∃ u, exec (.pushd 0x02#8) t = .next u ∧ statusOf u = 0#8) ∧
    (Memory.wf rawState ∧ (∀ b, Instr.rsraw 2#8 ≠ .pushd b) ∧ ∃ t, exec (.rsraw 2#8) rawState = .next t) :=
  ⟨⟨rfl, _, rfl, by decide⟩, ⟨_, rfl, by decide, _, rfl, by decide⟩, rawState_memory, by decide, ⟨_, rfl⟩⟩

theorem witness_ConfigurationWrittenOnlyByCfg :
    (∃ t, exec (.pushd 0x02#8) rawState = .next t) ∧ Instr.pushd 0x02#8 ≠ .clr ∧
    ∀ v l, Instr.pushd 0x02#8 ≠ .cfg v l := ⟨⟨_, rfl⟩, by decide, by decide⟩

theorem witness_SpacesHaveTheirWriters :
    (∃ t, exec (.pushd 0x02#8) rawState = .next t) ∧ (∃ t, exec .layout (configured 1#6 1#2) = .next t) ∧
    .ec ∉ writtenSpaces (.pushd 0x02#8) ∧ .cw ∉ writtenSpaces (.pushd 0x02#8) ∧ .gen ∉ writtenSpaces (.pushd 0x02#8) ∧
    .data ∉ writtenSpaces (.pushd 0x02#8) ∧ .rsvtag ∉ writtenSpaces (.pushd 0x02#8) ∧
    .rsvdark ∉ writtenSpaces (.pushd 0x02#8) ∧ .dc ∉ writtenSpaces .layout :=
  ⟨⟨_, rfl⟩, ⟨_, rfl⟩, by decide, by decide, by decide, by decide, by decide, by decide, by decide⟩

theorem witness_PushdLeavesStaleCells :
    (∃ t, exec (.pushd 0x02#8) placeable = .next t ∧ statusOf t = 0#8) ∧ ∃ u, exec (.rdmod 0#16) placeable = .next u :=
  ⟨⟨_, rfl, by decide⟩, ⟨_, rfl⟩⟩

/-- Two configurations of version 1 with different levels and data. -/
theorem witness_LayoutDependsOnVersionOnly :
    pushed1M.ver = (configured 1#6 3#2).ver ∧ pushed1M.ecl ≠ (configured 1#6 3#2).ecl ∧
    symbolOf pushed1M.ver pushed1M.ecl = some symbol1M ∧ pushed1M.cfgv = true ∧ (configured 1#6 3#2).cfgv = true ∧
    (∃ t, exec .layout pushed1M = .next t) ∧ (∃ t, exec .layout (configured 1#6 3#2) = .next t) ∧
    0 < symbol1M.n * symbol1M.n ∧ 440 < symbol1M.n * symbol1M.n ∧
    layoutCell { symbol1M with sepTag := .finder } 7 0 ≠ layoutCell symbol1M 7 0 :=
  ⟨rfl, by decide, symbolOf_1M, rfl, rfl, ⟨_, rfl⟩, ⟨_, rfl⟩, by decide, by decide, by decide⟩

theorem witness_EveryStepKeepsInvariant :
    (Inv rawState ∧ ∃ t, step rawState = .next t) ∧
    (InvFor finderParams rawState ∧ ∃ t, stepWith finderParams rawState = .next t) ∧
    (symbolOf pushed1M.ver pushed1M.ecl = some symbol1M ∧ (∃ t, exec .rsblks pushed1M = .next t ∧ statusOf t = 0#8) ∧
      ∃ t, exec .run pushed1M = .next t ∧ statusOf t = 0#8) ∧
    (∃ t, exec (.rsraw 30#8) rawState = .next t ∧ statusOf t = 0#8) ∧ ∃ t, exec (.genp 1#8) rawState = .next t :=
  ⟨⟨rawState_inv, _, rfl⟩, ⟨rawState_invFor _, rawState_stepWith⟩, ⟨symbolOf_1M, succeeds _ _ (by decide +kernel), succeeds _ _ (by decide +kernel)⟩,
    succeeds _ _ (by decide +kernel), ⟨_, rfl⟩⟩

theorem witness_EveryStepKeepsMemoryCanonical :
    (Memory.wf rawState ∧ ∃ t, step rawState = .next t) ∧ ∃ t, stepWith finderParams rawState = .next t :=
  ⟨⟨rawState_memory, _, rfl⟩, rawState_stepWith⟩

theorem witness_EveryStepKeepsWindowsDefined :
    (Inv rawState ∧ WindowsDefined rawState ∧ ∃ t, step rawState = .next t) ∧
    InvFor finderParams rawState ∧ WindowsDefinedFor finderParams rawState ∧ ∃ t, stepWith finderParams rawState = .next t :=
  ⟨⟨rawState_inv, rawState_windows, _, rfl⟩, rawState_invFor _, rawState_windowsFor _, rawState_stepWith⟩

theorem witness_EveryStepKeepsFlagsTruthful :
    (Inv rawState ∧ FlagsTruthful rawState ∧ ∃ t, step rawState = .next t) ∧
    InvFor finderParams rawState ∧ FlagsTruthfulFor finderParams rawState ∧ ∃ t, stepWith finderParams rawState = .next t :=
  ⟨⟨rawState_inv, rawState_flags, _, rfl⟩, rawState_invFor _, rawState_flagsFor _, rawState_stepWith⟩

theorem witness_GfMulObeysFieldLaws : (1#8) ≠ 0#8 ∧ gfMul 0x8E#8 0x02#8 = 1#8 := by decide +kernel

theorem witness_GfExpListsPowersOfTwo : 254 ≤ 254 ∧ gfExp 8 = gfExp 8 ∧ (0xFF#8) ≠ 0#8 :=
  ⟨by decide, rfl, by decide⟩

theorem witness_GfLogInvertsGfExp : 0 ≤ 254 ∧ 254 ≤ 254 ∧ (0x01#8) ≠ 0#8 := by decide

theorem witness_GfMulEqualsTableForm :
    gfLog 0x02#8 = some 1 ∧ gfLog 0x8E#8 = some 254 ∧ ((0x00#8) = 0#8 ∨ (0x55#8) = 0#8) := by decide +kernel

theorem witness_GenPolyHasTheRoots : 0 < 1 ∧ 29 < 30 := by decide

theorem witness_RsEncodeIsLinear : data1M.length = (data1M.map (· ^^^ 0xFF#8)).length := by decide

theorem witness_CodewordHasZeroSyndromes : 0 < 10 ∧ 9 < 10 := by decide

/-- 5-H has both groups: blocks 0, 1 and 2, 3. -/
theorem witness_BlocksTileTheData :
    1 ≤ symbol5H.b ∧ symbol5H.e ≤ symbol5H.t / symbol5H.b ∧
    1 < symbol5H.b - symbol5H.t % symbol5H.b ∧ symbol5H.b - symbol5H.t % symbol5H.b ≤ 2 := by decide

theorem witness_InterleavingPermutesCodewords :
    (1 ≤ symbol5H.b ∧ symbol5H.e ≤ symbol5H.t / symbol5H.b ∧ 1 < symbol5H.t % symbol5H.b) ∧
    (1 ≤ symbol1M.b ∧ symbol1M.e ≤ symbol1M.t / symbol1M.b ∧ symbol1M.b = 1) := by decide

/-- The replacement table passes the check and has a symbol of its own for version 5. -/
theorem witness_BlockTableIsWellFormed :
    (symbolOf 1#6 1#2 = some symbol1M ∧ symbolOf 5#6 3#2 = some symbol5H) ∧ paramsWellFormed spareParams = true ∧
    symbolWith spareParams 5#6 0#2 = some ⟨5, 37, 120, 4, 1, 26, [6, 18, 30], .separator⟩ :=
  ⟨⟨symbolOf_1M, symbolOf_5H⟩, by decide +kernel, by decide +kernel⟩

theorem witness_AlignmentTableIsWellFormed :
    paramsWellFormed defaultParams = true ∧ (symbolOf 1#6 1#2 = some symbol1M ∧ (1#6).toNat = 1) ∧
    (symbolOf 5#6 3#2 = some symbol5H ∧ 2 ≤ (5#6).toNat ∧ 6 ∈ symbol5H.align) :=
  ⟨by decide +kernel, ⟨symbolOf_1M, by decide⟩, symbolOf_5H, by decide, by decide⟩

theorem witness_LayoutEqualsSequenceOfWrites :
    paramsWellFormed defaultParams = true ∧ symbolOf 5#6 3#2 = some symbol5H ∧ 0 < symbol5H.n ∧ 36 < symbol5H.n ∧
    paramsWellFormed finderParams = true ∧ symbolWith finderParams 5#6 3#2 = some { symbol5H with sepTag := .finder } :=
  ⟨by decide +kernel, symbolOf_5H, by decide, by decide, by decide +kernel, by decide +kernel⟩

/-- The symbol 7-L of R74. -/
def symbol7L : Symbol := ⟨7, 45, 196, 0, 2, 20, [6, 22, 38], .separator⟩

theorem symbolOf_7L : symbolOf 7#6 0#2 = some symbol7L := by decide +kernel

/-- Version 7, cell (6, 20): a timing cell that the alignment pattern around (6, 22) covers. -/
theorem witness_StagesShareOnlyTimingCells :
    paramsWellFormed defaultParams = true ∧ symbolOf 7#6 0#2 = some symbol7L ∧ 6 < symbol7L.n ∧ 20 < symbol7L.n ∧ 2 < 3 ∧
    timingCell 45 6 20 = some ⟨.timing, true⟩ ∧ alignmentCell [6, 22, 38] 6 20 = some ⟨.alignment, true⟩ :=
  ⟨by decide +kernel, symbolOf_7L, by decide, by decide, by decide, by decide, by decide⟩

theorem witness_PlacementCoversUnreservedCells : symbolOf 40#6 0#2 ≠ none ∧ symbolOf 7#6 0#2 = some symbol7L :=
  ⟨by decide +kernel, symbolOf_7L⟩

theorem witness_FillerMachineAgrees : 0 < 21 * (21 - 1) ∧ 419 < 21 * (21 - 1) := by decide

theorem witness_CellsOfEachTag : symbolOf 1#6 1#2 = some symbol1M := symbolOf_1M

end Sys2Proof.Tests
end

section
/-! SUPPORT. What a command can do, said once for every command, and the statements about the state that follow from it:
the invariant of R27 (O38) and the sticky first error of R15 (O32). -/

namespace Sys2Proof.Proofs

open Sys2Proof.Machine Sys2Proof.Safety

/-! ## What a command can do -/

/-- `Effect params i s w`: command `i` passes its tests in state `s` and leaves `w`, before its response is put on the port. -/
inductive Effect (params : Params) : Instr → State → State → Prop where
  /-- R39: the commands that only read. -/
  | read (i : Instr) (s : State) (hi : isRead i = true) : Effect params i s s
  /-- R116. -/
  | clr (s : State) : Effect params .clr s (clearState s)
  /-- R117. -/
  | cfg (ver : BitVec 6) (ecl : BitVec 2) (s : State) (p : Symbol) (hver : 1 ≤ ver.toNat ∧ ver.toNat ≤ vMax)
      (hp : symbolWith params ver ecl = some p) : Effect params (.cfg ver ecl) s (configure ver ecl s)
  /-- R61. -/
  | genp (k : BitVec 8) (s : State) (hk : 1 ≤ k.toNat ∧ k.toNat ≤ ecMax) :
      Effect params (.genp k) s (installGen k.toNat s)
  /-- R62. -/
  | rsraw (k : BitVec 8) (s : State) (hk : 1 ≤ k.toNat ∧ k.toNat ≤ ecMax) (hd : 1 ≤ s.dclen.toNat)
      (hcap : s.dclen.toNat - 1 < capacity .dc) : Effect params (.rsraw k) s (rsrawState k.toNat s)
  /-- R63. -/
  | rsblks (s : State) (p : Symbol) (hc : s.cfgv = true) (hp : symbolWith params s.ver s.ecl = some p)
      (hd : s.dclen.toNat = dataCount p) : Effect params .rsblks s (rsblksState p s)
  /-- R79. -/
  | ilv (s : State) (p : Symbol) (he : s.ecv = true) (hp : symbolWith params s.ver s.ecl = some p) :
      Effect params .ilv s (ilvState p s)
  /-- R101. -/
  | layout (s : State) (p : Symbol) (hc : s.cfgv = true) (hp : symbolWith params s.ver s.ecl = some p) :
      Effect params .layout s (layoutState p s)
  /-- R110. -/
  | place (s : State) (p : Symbol) (hcw : s.cwv = true) (hl : s.layv = true)
      (hp : symbolWith params s.ver s.ecl = some p) : Effect params .place s (placeState p s)
  /-- R111. -/
  | run (s : State) (p : Symbol) (hc : s.cfgv = true) (hp : symbolWith params s.ver s.ecl = some p)
      (hd : s.dclen.toNat = dataCount p) : Effect params .run s (runState p s)
  /-- R120. -/
  | pushd (b : BitVec 8) (s : State) (hd : s.dclen.toNat < dcCap) : Effect params (.pushd b) s (pushState b s)

/-- R137: a result that answers a next state answers either the failed state, or a value after the command's effect. -/
def FailsOrTakesEffect (params : Params) (i : Instr) (s : State) (r : Result) : Prop :=
  ∀ t, r = .next t → (∃ code, code ≠ .ok ∧ t = failState code s) ∨
    ∃ v w, Effect params i s w ∧ t = withResp (responseWord .ok v) w

section
variable {params : Params} {i : Instr} {s : State}

theorem failsOrTakesEffect_respond (v : Val) {w : State} (h : Effect params i s w) :
    FailsOrTakesEffect params i s (respond v w) := by
  intro t ht
  rw [respond_eq] at ht
  injection ht with ht
  exact .inr ⟨v, w, h, ht.symm⟩

theorem failsOrTakesEffect_failWith (code : Status) (hcode : code ≠ .ok) :
    FailsOrTakesEffect params i s (failWith code s) := by
  intro t ht
  rw [failWith_eq] at ht
  injection ht with ht
  exact .inl ⟨code, hcode, ht.symm⟩

theorem failsOrTakesEffect_require {cond : Prop} [Decidable cond] {code : Status} {rest : Result} (hcode : code ≠ .ok)
    (h : cond → FailsOrTakesEffect params i s rest) : FailsOrTakesEffect params i s (require cond code s rest) := by
  intro t ht
  obtain ⟨-, ht⟩ | ⟨hc, ht⟩ := require_next cond code s t rest ht
  · exact .inl ⟨code, hcode, ht⟩
  · exact h hc t ht

theorem failsOrTakesEffect_withSymbol {ver : BitVec 6} {ecl : BitVec 2} {rest : Symbol → Result}
    (h : ∀ p, symbolWith params ver ecl = some p → FailsOrTakesEffect params i s (rest p)) :
    FailsOrTakesEffect params i s (withSymbol params ver ecl rest) := by
  intro t ht
  obtain ⟨p, hp, ht⟩ := withSymbol_next params ver ecl t rest ht
  exact h p hp t ht

theorem failsOrTakesEffect_withElement {sp : Space} {j : Nat} {rest : Result}
    (h : j < capacity sp → FailsOrTakesEffect params i s rest) :
    FailsOrTakesEffect params i s (withElement sp j rest) := by
  intro t ht
  obtain ⟨hj, ht⟩ := withElement_next sp j t rest ht
  exact h hj t ht

end

/-- `RDPAR` fails or only reads. -/
theorem execRdparWith_failsOrTakesEffect (params : Params) (k : BitVec 8) (s : State) :
    FailsOrTakesEffect params (.rdpar k) s (execRdparWith params k s) := by
  refine failsOrTakesEffect_require (by decide) fun _ => failsOrTakesEffect_require (by decide) fun _ => ?_
  split
  · exact failsOrTakesEffect_withSymbol fun _ _ => failsOrTakesEffect_respond _ (.read _ s rfl)
  · exact failsOrTakesEffect_respond _ (.read _ s rfl)

/-- `GFLOG` fails or only reads. -/
theorem execGflog_failsOrTakesEffect (params : Params) (a : BitVec 8) (s : State) :
    FailsOrTakesEffect params (.gflog a) s (execGflog a s) := by
  unfold execGflog
  split
  · exact failsOrTakesEffect_respond _ (.read _ s rfl)
  · exact failsOrTakesEffect_failWith _ (by decide)

/-- Every command, test by test in the order of its rule, fails or takes its effect. -/
theorem execWith_failsOrTakesEffect (params : Params) (i : Instr) (s : State) :
    FailsOrTakesEffect params i s (execWith params i s) := by
  cases i with
  | nop => exact failsOrTakesEffect_respond _ (.read _ s rfl)
  | clr => exact failsOrTakesEffect_respond _ (.clr s)
  | cfg ver ecl =>
    exact failsOrTakesEffect_require (by decide) fun hver => failsOrTakesEffect_withSymbol fun p hp =>
      failsOrTakesEffect_respond _ (.cfg ver ecl s p hver hp)
  | rdstat => exact failsOrTakesEffect_respond _ (.read _ s rfl)
  | rdpar k => exact execRdparWith_failsOrTakesEffect params k s
  | gfmul a b => exact failsOrTakesEffect_respond _ (.read _ s rfl)
  | gfexp e =>
    exact failsOrTakesEffect_require (by decide) fun _ => failsOrTakesEffect_respond _ (.read _ s rfl)
  | gflog a => exact execGflog_failsOrTakesEffect params a s
  | genp k =>
    exact failsOrTakesEffect_require (by decide) fun hk => failsOrTakesEffect_respond _ (.genp k s hk)
  | rsraw k =>
    exact failsOrTakesEffect_require (by decide) fun hk => failsOrTakesEffect_require (by decide) fun hd =>
      failsOrTakesEffect_withElement fun hcap => failsOrTakesEffect_respond _ (.rsraw k s hk hd hcap)
  | rsblks =>
    exact failsOrTakesEffect_require (by decide) fun hc => failsOrTakesEffect_withSymbol fun p hp =>
      failsOrTakesEffect_require (by decide) fun hd => failsOrTakesEffect_respond _ (.rsblks s p hc hp hd)
  | ilv =>
    exact failsOrTakesEffect_require (by decide) fun he => failsOrTakesEffect_withSymbol fun p hp =>
      failsOrTakesEffect_respond _ (.ilv s p he hp)
  | layout =>
    exact failsOrTakesEffect_require (by decide) fun hc => failsOrTakesEffect_withSymbol fun p hp =>
      failsOrTakesEffect_respond _ (.layout s p hc hp)
  | place =>
    exact failsOrTakesEffect_require (by decide) fun hcw => failsOrTakesEffect_require (by decide) fun hl =>
      failsOrTakesEffect_withSymbol fun p hp => failsOrTakesEffect_respond _ (.place s p hcw hl hp)
  | run =>
    exact failsOrTakesEffect_require (by decide) fun hc => failsOrTakesEffect_withSymbol fun p hp =>
      failsOrTakesEffect_require (by decide) fun hd => failsOrTakesEffect_respond _ (.run s p hc hp hd)
  | pushd b =>
    exact failsOrTakesEffect_require (by decide) fun hd => failsOrTakesEffect_respond _ (.pushd b s hd)
  | rddc j =>
    exact failsOrTakesEffect_require (by decide) fun _ => failsOrTakesEffect_withElement fun _ =>
      failsOrTakesEffect_respond _ (.read _ s rfl)
  | rdec j =>
    exact failsOrTakesEffect_require (by decide) fun _ => failsOrTakesEffect_require (by decide) fun _ =>
      failsOrTakesEffect_withElement fun _ => failsOrTakesEffect_respond _ (.read _ s rfl)
  | rdcw j =>
    exact failsOrTakesEffect_require (by decide) fun _ => failsOrTakesEffect_withSymbol fun _ _ =>
      failsOrTakesEffect_require (by decide) fun _ => failsOrTakesEffect_respond _ (.read _ s rfl)
  | rdgen j =>
    exact failsOrTakesEffect_require (by decide) fun _ => failsOrTakesEffect_require (by decide) fun _ =>
      failsOrTakesEffect_withElement fun _ => failsOrTakesEffect_respond _ (.read _ s rfl)
  | rdmod j =>
    exact failsOrTakesEffect_require (by decide) fun _ => failsOrTakesEffect_withSymbol fun _ _ =>
      failsOrTakesEffect_require (by decide) fun _ => failsOrTakesEffect_respond _ (.read _ s rfl)

/-- What a command can do, under any parameters. -/
theorem execWith_next {params : Params} {i : Instr} {s t : State} (h : execWith params i s = .next t) :
    (∃ code, code ≠ .ok ∧ t = failState code s) ∨
    ∃ v w, Effect params i s w ∧ t = withResp (responseWord .ok v) w :=
  execWith_failsOrTakesEffect params i s t h

/-- `exec` is the block at the default parameters. -/
theorem execWith_defaultParams : execWith defaultParams = exec := by
  funext i s
  cases i <;> rfl

/-- What a command can do, under the default parameters. -/
theorem exec_next {i : Instr} {s t : State} (h : exec i s = .next t) :
    (∃ code, code ≠ .ok ∧ t = failState code s) ∨
    ∃ v w, Effect defaultParams i s w ∧ t = withResp (responseWord .ok v) w :=
  execWith_next (by rwa [execWith_defaultParams])

/-! ## The status of a response -/

@[simp] theorem statusOf_withResp (st : Status) (v : Val) (s : State) :
    statusOf (withResp (responseWord st v) s) = statusCode st :=
  BitVec.extractLsb'_append_eq_left

@[simp] theorem statusOf_failState (code : Status) (s : State) : statusOf (failState code s) = statusCode code :=
  statusOf_withResp code 0#24 _

/-- R136: only `OK` has the code 0. -/
theorem statusCode_eq_zero {st : Status} (h : statusCode st = 0#8) : st = .ok := by
  revert h
  cases st <;> decide

/-- A command that answers status 0 took its effect. -/
theorem exec_next_ok {i : Instr} {s t : State} (h : exec i s = .next t) (hok : statusOf t = 0#8) :
    ∃ v w, Effect defaultParams i s w ∧ t = withResp (responseWord .ok v) w := by
  obtain ⟨code, hcode, rfl⟩ | heff := exec_next h
  · exact absurd (statusCode_eq_zero (statusOf_failState code s ▸ hok)) hcode
  · exact heff

/-! ## The generator polynomial leads with 1 (R55) -/

/-- Multiplying by a monic factor keeps the leading coefficient. -/
theorem head?_polyTimesRoot (g : List Byte) (a : Byte) (h : g.head? = some 1#8) :
    (polyTimesRoot g a).head? = some 1#8 := by
  cases g with
  | nil => cases h
  | cons x xs =>
    cases h
    simp [polyTimesRoot, xorInto]

theorem head?_genPoly (k : Nat) : (genPoly k).head? = some 1#8 := by
  induction k with
  | zero => rfl
  | succ k ih =>
    have hstep : genPoly (k + 1) = polyTimesRoot (genPoly k) (gfExp k) := by
      simp [genPoly, List.range_succ]
    rw [hstep]
    exact head?_polyTimesRoot _ _ ih

theorem bufGet_installGen_zero (k : Nat) (s : State) : bufGet (installGen k s).gen 0 = some 1#8 := by
  simp [bufGet_numbered, ← List.head?_eq_getElem?, head?_genPoly]

/-! ## Counters of the generator and of the error-correction codewords -/

theorem installGen_gendeg_toNat {k : Nat} (hk : k ≤ ecMax) (s : State) : (installGen k s).gendeg.toNat = k := by
  have : k < 32 := Nat.lt_of_le_of_lt hk (by decide)
  simpa using this

theorem storeEc_eclen_toNat {n : Nat} (hn : n ≤ ecCap) (bytes : List Byte) (s : State) :
    (storeEc bytes n s).eclen.toNat = n := by
  have : n < 4096 := Nat.lt_of_le_of_lt hn (by decide)
  simpa using this

/-- R73: the bounds on a symbol of well-formed parameters that the counters need. -/
theorem symbolWith_bounds {params : Params} {ver : BitVec 6} {ecl : BitVec 2} {p : Symbol}
    (hw : paramsWellFormed params = true) (hp : symbolWith params ver ecl = some p) :
    p.e ≤ ecMax ∧ p.b * p.e ≤ ecCap := by
  obtain ⟨-, -, -, hentry, -⟩ := symbolWith_rows params ver ecl p hw hp
  simp only [entryWellFormed, Bool.and_eq_true, decide_eq_true_eq] at hentry
  exact ⟨hentry.1.1.1.1.1.1.2, hentry.1.2⟩

/-! ## The invariant of R27 under each operation (O38) -/

theorem sameButFerr_withResp (w : Word) (s : State) : SameButFerr s (withResp w s) := by
  simp [SameButFerr]

theorem sameButFerr_failState (code : Status) (s : State) : SameButFerr s (failState code s) := by
  simp [SameButFerr]

theorem sameButFerr_inputs (xs : List HostInput) (s : State) : SameButFerr s { s with inputs := xs } := by
  simp [SameButFerr]

section
variable {params : Params} {s : State}

/-- The invariant does not look at `FERR`, at the response or at the host's inputs. -/
theorem invFor_of_sameButFerr {t : State} (h : InvFor params s) (hst : SameButFerr s t) : InvFor params t := by
  obtain ⟨hver, hecl, hdclen, heclen, hgendeg, hcfgv, hrawv, hecv, hcwv, hlayv, hplv, hgen, -⟩ := hst
  constructor <;> simp only [LegalVersion, hver, hecl, hdclen, heclen, hgendeg, hcfgv, hrawv, hecv, hcwv, hlayv, hplv, hgen]
  · exact h.unconfigured
  · exact h.version
  · exact h.blocks
  · exact h.raw
  · exact h.codewords
  · exact h.placed
  · exact h.dcBound
  · exact h.ecBound
  · exact h.genBound
  · exact h.genLead

/-- Both resets (R26): every premise of the invariant is false and every counter 0. -/
theorem invFor_clearState (params : Params) (s : State) : InvFor params (clearState s) := by
  constructor <;> simp

theorem invFor_configure (h : InvFor params s) {ver : BitVec 6} (hver : 1 ≤ ver.toNat ∧ ver.toNat ≤ vMax)
    (ecl : BitVec 2) : InvFor params (configure ver ecl s) where
  unconfigured := by simp
  version _ := hver
  blocks := by simp
  raw := by simp
  codewords := by simp
  placed := by simp
  dcBound := by simp
  ecBound := by simp
  genBound := h.genBound
  genLead := h.genLead

theorem invFor_installGen (h : InvFor params s) {k : Nat} (hk : k ≤ ecMax) : InvFor params (installGen k s) where
  unconfigured := h.unconfigured
  version := h.version
  blocks := h.blocks
  raw := h.raw
  codewords := h.codewords
  placed := h.placed
  dcBound := h.dcBound
  ecBound := h.ecBound
  genBound := (installGen_gendeg_toNat hk s).trans_le hk
  genLead _ := bufGet_installGen_zero k s

/-- R62, after the polynomial is built: the check bytes of one block. -/
theorem invFor_storeRaw (h : InvFor params s) {k : Nat} (hk : 1 ≤ k ∧ k ≤ ecMax) (hd : 1 ≤ s.dclen.toNat)
    (bytes : List Byte) : InvFor params (flagsAfterRaw (storeEc bytes k s)) := by
  have hcap : k ≤ ecCap := hk.2.trans (by decide)
  have heclen : (flagsAfterRaw (storeEc bytes k s)).eclen.toNat = k := storeEc_eclen_toNat hcap bytes s
  exact
    { unconfigured := fun hc => ⟨rfl, rfl, (h.unconfigured hc).2.2.1, rfl⟩
      version := h.version
      blocks := by simp
      raw := fun _ => ⟨hd, hk.1.trans_eq heclen.symm, heclen.trans_le hk.2, rfl, rfl, rfl⟩
      codewords := by simp
      placed := by simp
      dcBound := h.dcBound
      ecBound := heclen.trans_le hcap
      genBound := h.genBound
      genLead := h.genLead }

theorem invFor_rsrawState (h : InvFor params s) {k : Nat} (hk : 1 ≤ k ∧ k ≤ ecMax) (hd : 1 ≤ s.dclen.toNat) :
    InvFor params (rsrawState k s) :=
  invFor_storeRaw (invFor_installGen h hk.2) hk hd _

/-- R63, after the polynomial is built: the error-correction codewords of every block. -/
theorem invFor_storeBlocks (h : InvFor params s) {p : Symbol} (hc : s.cfgv = true)
    (hp : symbolWith params s.ver s.ecl = some p) (hd : s.dclen.toNat = dataCount p) (hbe : p.b * p.e ≤ ecCap)
    (bytes : List Byte) : InvFor params (flagsAfterBlocks (storeEc bytes (p.b * p.e) s)) := by
  have heclen : (flagsAfterBlocks (storeEc bytes (p.b * p.e) s)).eclen.toNat = p.b * p.e :=
    storeEc_eclen_toNat hbe bytes s
  exact
    { unconfigured := by simp [hc]
      version := h.version
      blocks := fun _ => ⟨hc, rfl, p, hp, hd, heclen⟩
      raw := by simp
      codewords := by simp
      placed := by simp
      dcBound := h.dcBound
      ecBound := heclen.trans_le hbe
      genBound := h.genBound
      genLead := h.genLead }

theorem invFor_rsblksState (hw : paramsWellFormed params = true) (h : InvFor params s) {p : Symbol} (hc : s.cfgv = true)
    (hp : symbolWith params s.ver s.ecl = some p) (hd : s.dclen.toNat = dataCount p) :
    InvFor params (rsblksState p s) := by
  obtain ⟨he, hbe⟩ := symbolWith_bounds hw hp
  exact invFor_storeBlocks (invFor_installGen h he) hc hp hd hbe _

/-- R79: `ECV` holds, so the block is configured and `RAWV` is clear. -/
theorem invFor_ilvState (h : InvFor params s) (he : s.ecv = true) (p : Symbol) : InvFor params (ilvState p s) := by
  obtain ⟨hc, hraw, -⟩ := h.blocks he
  exact
    { unconfigured := by simp [hc]
      version := h.version
      blocks := h.blocks
      raw := by simp [hraw]
      codewords := fun _ => he
      placed := by simp
      dcBound := h.dcBound
      ecBound := h.ecBound
      genBound := h.genBound
      genLead := h.genLead }

theorem invFor_layoutState (h : InvFor params s) (hc : s.cfgv = true) (p : Symbol) :
    InvFor params (layoutState p s) where
  unconfigured := by simp [hc]
  version := h.version
  blocks := h.blocks
  raw hraw := by
    obtain ⟨hd, he1, he30, hecv, hcwv, -⟩ := h.raw hraw
    exact ⟨hd, he1, he30, hecv, hcwv, rfl⟩
  codewords := h.codewords
  placed := by simp
  dcBound := h.dcBound
  ecBound := h.ecBound
  genBound := h.genBound
  genLead := h.genLead

/-- R110: `CWV` holds, so `ECV` holds, so the block is configured and `RAWV` is clear. -/
theorem invFor_placeState (h : InvFor params s) (hcw : s.cwv = true) (hl : s.layv = true) (p : Symbol) :
    InvFor params (placeState p s) := by
  obtain ⟨hc, hraw, -⟩ := h.blocks (h.codewords hcw)
  exact
    { unconfigured := by simp [hc]
      version := h.version
      blocks := h.blocks
      raw := by simp [hraw]
      codewords := h.codewords
      placed := fun _ => ⟨hcw, hl⟩
      dcBound := h.dcBound
      ecBound := h.ecBound
      genBound := h.genBound
      genLead := h.genLead }

/-- R111: the four stages in turn, each with what the one before it set. -/
theorem invFor_runState (hw : paramsWellFormed params = true) (h : InvFor params s) {p : Symbol} (hc : s.cfgv = true)
    (hp : symbolWith params s.ver s.ecl = some p) (hd : s.dclen.toNat = dataCount p) : InvFor params (runState p s) := by
  have hblocks : InvFor params (rsblksState p s) := invFor_rsblksState hw h hc hp hd
  have hilv : InvFor params (ilvState p (rsblksState p s)) := invFor_ilvState hblocks rfl p
  have hlayout : InvFor params (layoutState p (ilvState p (rsblksState p s))) := invFor_layoutState hilv hc p
  exact invFor_placeState hlayout rfl rfl p

theorem invFor_pushState (h : InvFor params s) (hd : s.dclen.toNat < dcCap) (b : BitVec 8) :
    InvFor params (pushState b s) where
  unconfigured hc := ⟨rfl, rfl, (h.unconfigured hc).2.2.1, rfl⟩
  version := h.version
  blocks := by simp
  raw := by simp
  codewords := by simp
  placed := by simp
  dcBound := by
    have hcap : s.dclen.toNat < 2956 := hd
    simp only [pushState_dclen, BitVec.toNat_add, BitVec.toNat_ofNat]
    omega
  ecBound := h.ecBound
  genBound := h.genBound
  genLead := h.genLead

/-- The effect of every command keeps the invariant. -/
theorem invFor_of_effect (hw : paramsWellFormed params = true) {i : Instr} {w : State} (h : InvFor params s)
    (heff : Effect params i s w) : InvFor params w := by
  cases heff with
  | read => exact h
  | clr => exact invFor_clearState params s
  | cfg ver ecl _ p hver hp => exact invFor_configure h hver ecl
  | genp k _ hk => exact invFor_installGen h hk.2
  | rsraw k _ hk hd => exact invFor_rsrawState h hk hd
  | rsblks _ p hc hp hd => exact invFor_rsblksState hw h hc hp hd
  | ilv _ p he => exact invFor_ilvState h he p
  | layout _ p hc => exact invFor_layoutState h hc p
  | place _ p hcw hl => exact invFor_placeState h hcw hl p
  | run _ p hc hp hd => exact invFor_runState hw h hc hp hd
  | pushd b _ hd => exact invFor_pushState h hd b

theorem execWith_keeps_invFor (hw : paramsWellFormed params = true) {i : Instr} {t : State} (h : InvFor params s)
    (ht : execWith params i s = .next t) : InvFor params t := by
  obtain ⟨code, -, rfl⟩ | ⟨v, w, heff, rfl⟩ := execWith_next ht
  · exact invFor_of_sameButFerr h (sameButFerr_failState code s)
  · exact invFor_of_sameButFerr (invFor_of_effect hw h heff) (sameButFerr_withResp _ w)

theorem runWordWith_keeps_invFor (hw : paramsWellFormed params = true) {x : Word} {t : State} (h : InvFor params s)
    (ht : runWordWith params x s = .next t) : InvFor params t := by
  obtain ⟨-, rfl⟩ | ⟨-, rfl⟩ | ⟨i, -, ht⟩ := runWordBy_next _ x s t ht
  · exact invFor_of_sameButFerr h (sameButFerr_failState .badOp s)
  · exact invFor_of_sameButFerr h (sameButFerr_failState .badArg s)
  · exact execWith_keeps_invFor hw h ht

theorem stepWith_keeps_invFor {t : State} (h : InvFor params s) (ht : stepWith params s = .next t) :
    InvFor params t := by
  obtain ⟨hw, ⟨-, rfl⟩ | ⟨x, rest, -, ht⟩ | ⟨x, rest, -, -, rfl⟩⟩ := stepWith_next params s t ht
  · exact h
  · exact runWordWith_keeps_invFor hw (invFor_of_sameButFerr h (sameButFerr_inputs rest s)) ht
  · exact invFor_clearState params _

end

theorem paramsWellFormed_defaultParams : paramsWellFormed defaultParams = true := by decide +kernel

/-- `step` is the block at the default parameters, which pass the check. -/
theorem stepWith_defaultParams : stepWith defaultParams = step := by
  funext s
  rw [stepWith, if_pos paramsWellFormed_defaultParams, execWith_defaultParams]
  rfl

theorem invFor_reset (params : Params) (xs : List HostInput) : InvFor params { State.reset with inputs := xs } :=
  invFor_clearState params { State.reset with inputs := xs }

/-! ## Item 8 of R27 -/

/-- The effect of `RSBLKS` or `RUN` leaves the degree of the configured symbol. -/
theorem gendeg_of_effect {i : Instr} (hi : i = .rsblks ∨ i = .run) {s w : State} {p : Symbol}
    (hp : symbolOf s.ver s.ecl = some p) (heff : Effect defaultParams i s w) : w.gendeg.toNat = p.e := by
  have hdeg : ∀ q, symbolOf s.ver s.ecl = some q → (rsblksState q s).gendeg.toNat = p.e := fun q hq => by
    obtain rfl : q = p := Option.some.inj (hq.symm.trans hp)
    exact installGen_gendeg_toNat (symbolWith_bounds paramsWellFormed_defaultParams hp).1 s
  obtain rfl | rfl := hi
  · cases heff with
    | read _ _ hread => cases hread
    | rsblks _ q _ hq _ => exact hdeg q hq
  · cases heff with
    | read _ _ hread => cases hread
    | run _ q _ hq _ => exact hdeg q hq

theorem gendeg_after_rsblks_or_run {s t : State} {p : Symbol} (hp : symbolOf s.ver s.ecl = some p)
    (ht : exec .rsblks s = .next t ∨ exec .run s = .next t) (hok : statusOf t = 0#8) : t.gendeg.toNat = p.e := by
  obtain ht | ht := ht
  · obtain ⟨v, w, heff, rfl⟩ := exec_next_ok ht hok
    rw [withResp_gendeg]
    exact gendeg_of_effect (.inl rfl) hp heff
  · obtain ⟨v, w, heff, rfl⟩ := exec_next_ok ht hok
    rw [withResp_gendeg]
    exact gendeg_of_effect (.inr rfl) hp heff

theorem gendeg_after_rsraw {s t : State} {k : BitVec 8} (ht : exec (.rsraw k) s = .next t) (hok : statusOf t = 0#8) :
    t.gendeg.toNat = k.toNat := by
  obtain ⟨v, w, heff, rfl⟩ := exec_next_ok ht hok
  cases heff with
  | read _ _ hi => cases hi
  | rsraw _ _ hk => exact installGen_gendeg_toNat hk.2 s

/-- `GENP` leaves `RAWV` and `ECV`, whether it fails or not. -/
theorem genp_keeps_rawv_ecv {s t : State} {k : BitVec 8} (ht : exec (.genp k) s = .next t) :
    t.rawv = s.rawv ∧ t.ecv = s.ecv := by
  obtain ⟨code, -, rfl⟩ | ⟨v, w, heff, rfl⟩ := exec_next ht
  · exact ⟨rfl, rfl⟩
  · cases heff <;> exact ⟨rfl, rfl⟩

/-- Settles O38: the invariant holds after reset, the effect of every command keeps it, and `step` is `stepWith` at the
default parameters. -/
theorem everyStepKeepsInvariant : Obligations.EveryStepKeepsInvariant := by
  refine ⟨invFor_reset defaultParams, fun s t h ht => ?_, invFor_reset, fun _ _ _ h ht => stepWith_keeps_invFor h ht,
    fun _ _ _ hp ht hok => gendeg_after_rsblks_or_run hp ht hok, fun _ _ _ ht hok => gendeg_after_rsraw ht hok,
    fun _ _ _ ht => genp_keeps_rawv_ecv ht⟩
  rw [← stepWith_defaultParams] at ht
  exact stepWith_keeps_invFor h ht

/-! ## The first error sticks (O32) -/

/-- R15: no effect but that of `CLR` writes `FERR`. -/
theorem effect_keeps_ferr {params : Params} {i : Instr} {s w : State} (heff : Effect params i s w) (hi : i ≠ .clr) :
    w.ferr = s.ferr := by
  cases heff with
  | clr => exact absurd rfl hi
  | _ => rfl

/-- R15: the way `FERR` follows the status of a response. -/
def FerrRecords (s t : State) : Prop := t.ferr = if s.ferr = 0#8 then statusOf t else s.ferr

theorem ferrRecords_failState (code : Status) (s : State) : FerrRecords s (failState code s) := by
  simp [FerrRecords]

theorem ferrRecords_ok {s w : State} (h : w.ferr = s.ferr) (v : Val) :
    FerrRecords s (withResp (responseWord .ok v) w) := by
  by_cases h0 : s.ferr = 0#8 <;> simp [FerrRecords, h, h0, statusCode]

theorem runWord_ferrRecords {x : Word} {s t : State} (ht : runWord x s = .next t) (hx : decode x ≠ .wellFormed .clr) :
    FerrRecords s t := by
  obtain ⟨-, rfl⟩ | ⟨-, rfl⟩ | ⟨i, hdec, ht⟩ := runWord_next x s t ht
  · exact ferrRecords_failState .badOp s
  · exact ferrRecords_failState .badArg s
  · obtain ⟨code, -, rfl⟩ | ⟨v, w, heff, rfl⟩ := exec_next ht
    · exact ferrRecords_failState code s
    · exact ferrRecords_ok (effect_keeps_ferr heff fun hi => hx (hi ▸ hdec)) v

/-! ## `FERR` never changes what a command does (O32) -/

/-- The second result answers whenever the first does: the same response, and the same state but for `FERR`. -/
def SameAnswer (r r' : Result) : Prop :=
  ∀ t, r = .next t → ∃ u, r' = .next u ∧ u.resp = t.resp ∧ SameButFerr t u

theorem sameButFerr_ferr (s : State) (f : BitVec 8) : SameButFerr s { s with ferr := f } := by
  simp [SameButFerr]

theorem sameAnswer_respond (v : Val) {s s' : State} (h : SameButFerr s s') : SameAnswer (respond v s) (respond v s') := by
  intro t ht
  cases ht
  exact ⟨_, rfl, rfl, h⟩

theorem sameAnswer_failWith (code : Status) {s s' : State} (h : SameButFerr s s') :
    SameAnswer (failWith code s) (failWith code s') := by
  intro t ht
  cases ht
  exact ⟨_, rfl, rfl, h⟩

theorem sameAnswer_require {cond : Prop} [Decidable cond] {code : Status} {s s' : State} {rest rest' : Result}
    (h : SameButFerr s s') (hrest : SameAnswer rest rest') :
    SameAnswer (require cond code s rest) (require cond code s' rest') := by
  by_cases hc : cond
  · rwa [require_pos cond hc, require_pos cond hc]
  · rw [require_neg cond hc, require_neg cond hc]
    exact sameAnswer_failWith code h

theorem sameAnswer_withSymbol {params : Params} {ver : BitVec 6} {ecl : BitVec 2} {rest rest' : Symbol → Result}
    (h : ∀ p, SameAnswer (rest p) (rest' p)) :
    SameAnswer (withSymbol params ver ecl rest) (withSymbol params ver ecl rest') := by
  intro t ht
  obtain ⟨p, hp, ht⟩ := withSymbol_next params ver ecl t rest ht
  rw [withSymbol_some params ver ecl p hp]
  exact h p t ht

theorem sameAnswer_withElement {sp : Space} {j : Nat} {rest rest' : Result} (h : SameAnswer rest rest') :
    SameAnswer (withElement sp j rest) (withElement sp j rest') := by
  intro t ht
  obtain ⟨hj, ht⟩ := withElement_next sp j t rest ht
  rw [withElement_pos sp j hj]
  exact h t ht

/-- `RDPAR` shows no register that holds an error. -/
theorem execRdpar_sameAnswer (k : BitVec 8) (s : State) (f : BitVec 8) :
    SameAnswer (execRdpar k s) (execRdpar k { s with ferr := f }) := by
  have hf := sameButFerr_ferr s f
  refine sameAnswer_require hf (sameAnswer_require hf ?_)
  by_cases hk : selectorOf k ≤ 9
  · rw [if_pos hk, if_pos hk]
    exact sameAnswer_withSymbol fun p => sameAnswer_respond _ hf
  · rw [if_neg hk, if_neg hk]
    exact sameAnswer_respond _ hf

theorem execGflog_sameAnswer (a : BitVec 8) (s : State) (f : BitVec 8) :
    SameAnswer (execGflog a s) (execGflog a { s with ferr := f }) := by
  unfold execGflog
  split
  · exact sameAnswer_respond _ (sameButFerr_ferr s f)
  · exact sameAnswer_failWith _ (sameButFerr_ferr s f)

/-- Every test, every written value and every answer but that of `RDSTAT` is read from the state without `FERR`. -/
theorem exec_sameAnswer {i : Instr} (hi : i ≠ .rdstat) (s : State) (f : BitVec 8) :
    SameAnswer (exec i s) (exec i { s with ferr := f }) := by
  have hf := sameButFerr_ferr s f
  cases i with
  | rdstat => exact absurd rfl hi
  | nop => exact sameAnswer_respond _ hf
  | clr => exact sameAnswer_respond _ (sameButFerr_ferr _ 0#8)
  | cfg ver ecl =>
    exact sameAnswer_require hf (sameAnswer_withSymbol fun p => sameAnswer_respond _ (sameButFerr_ferr _ f))
  | rdpar k => exact execRdpar_sameAnswer k s f
  | gfmul a b => exact sameAnswer_respond _ hf
  | gfexp e => exact sameAnswer_require hf (sameAnswer_respond _ hf)
  | gflog a => exact execGflog_sameAnswer a s f
  | genp k => exact sameAnswer_require hf (sameAnswer_respond _ (sameButFerr_ferr _ f))
  | rsraw k =>
    exact sameAnswer_require hf (sameAnswer_require hf (sameAnswer_withElement
      (sameAnswer_respond _ (sameButFerr_ferr _ f))))
  | rsblks =>
    exact sameAnswer_require hf (sameAnswer_withSymbol fun p => sameAnswer_require hf
      (sameAnswer_respond _ (sameButFerr_ferr _ f)))
  | ilv =>
    exact sameAnswer_require hf (sameAnswer_withSymbol fun p => sameAnswer_respond _ (sameButFerr_ferr _ f))
  | layout =>
    exact sameAnswer_require hf (sameAnswer_withSymbol fun p => sameAnswer_respond _ (sameButFerr_ferr _ f))
  | place =>
    exact sameAnswer_require hf (sameAnswer_require hf (sameAnswer_withSymbol fun p =>
      sameAnswer_respond _ (sameButFerr_ferr _ f)))
  | run =>
    exact sameAnswer_require hf (sameAnswer_withSymbol fun p => sameAnswer_require hf
      (sameAnswer_respond _ (sameButFerr_ferr _ f)))
  | pushd b => exact sameAnswer_require hf (sameAnswer_respond _ (sameButFerr_ferr _ f))
  | rddc j => exact sameAnswer_require hf (sameAnswer_withElement (sameAnswer_respond _ hf))
  | rdec j =>
    exact sameAnswer_require hf (sameAnswer_require hf (sameAnswer_withElement (sameAnswer_respond _ hf)))
  | rdcw j =>
    exact sameAnswer_require hf (sameAnswer_withSymbol fun p => sameAnswer_require hf (sameAnswer_respond _ hf))
  | rdgen j =>
    exact sameAnswer_require hf (sameAnswer_require hf (sameAnswer_withElement (sameAnswer_respond _ hf)))
  | rdmod j =>
    exact sameAnswer_require hf (sameAnswer_withSymbol fun p => sameAnswer_require hf (sameAnswer_respond _ hf))

/-- Settles O32: a word fails, and records its status if no error is recorded yet, or takes an effect that leaves `FERR`. -/
theorem firstErrorSticks : Obligations.FirstErrorSticks := by
  refine ⟨fun _ _ _ ht hx => runWord_ferrRecords ht hx, fun s t ht => ?_, clearState_ferr,
    fun _ s t f hi ht => exec_sameAnswer hi s f t ht⟩
  cases ht
  exact clearState_ferr s

end Sys2Proof.Proofs
end

section
/-! SUPPORT. Two buffers in canonical form with the same elements are the same listing, so writing the same elements again
changes nothing; from this and `Effect`, every command but `PUSHD` answers the same in the state that it leaves (O33). -/

namespace Sys2Proof.Proofs

open Sys2Proof.Machine Sys2Proof.Safety

/-! ## Writing the same elements again -/

section
variable {α : Type}

/-- In a canonical listing, the pairs listed are exactly the elements read. -/
theorem mem_iff_bufGet {b : Buffer α} (hb : bufCanonical b) (i : Nat) (v : α) : (i, v) ∈ b ↔ bufGet b i = some v := by
  induction b with
  | nil => simp
  | cons x b ih =>
    obtain ⟨j, w⟩ := x
    obtain ⟨hj, hb⟩ := List.pairwise_cons.1 hb
    by_cases h : j = i
    · subst h
      have hnot : (j, v) ∉ b := fun hm => Nat.lt_irrefl j (hj _ hm)
      simp [bufGet, hnot, eq_comm]
    · simp [bufGet, h, Ne.symm h, ih hb]

/-- A canonical listing is determined by its elements. -/
theorem bufCanonical_ext {b c : Buffer α} (hb : bufCanonical b) (hc : bufCanonical c)
    (h : ∀ i, bufGet b i = bufGet c i) : b = c := by
  have hirrefl : Std.Irrefl fun x y : Nat × α => x.1 < y.1 := ⟨fun x => Nat.lt_irrefl x.1⟩
  have hasymm : Std.Antisymm fun x y : Nat × α => x.1 < y.1 := ⟨fun _ _ h1 h2 => absurd h2 (Nat.lt_asymm h1)⟩
  refine List.Pairwise.eq_of_mem_iff hb hc fun x => ?_
  obtain ⟨i, v⟩ := x
  rw [mem_iff_bufGet hb, mem_iff_bufGet hc, h]

/-- Writing a run of elements a second time changes nothing. -/
theorem bufWrite_bufWrite {b : Buffer α} (hb : bufCanonical b) (base : Nat) (vs : List α) :
    bufWrite (bufWrite b base vs) base vs = bufWrite b base vs := by
  have hw := bufWrite_canonical b base vs hb
  refine bufCanonical_ext (bufWrite_canonical _ base vs hw) hw fun i => ?_
  rw [bufGet_bufWrite (bufWrite b base vs), bufGet_bufWrite b]
  split <;> rfl

end

/-- The last bit placed on a cell of the list decides, whatever the cell held. -/
theorem bufGet_placeBits_of_mem (bit : Nat → Bool) (cells : List Nat) (k : Nat) (data data' : Buffer Bool) (i : Nat)
    (h : i ∈ cells) : bufGet (placeBits bit cells k data) i = bufGet (placeBits bit cells k data') i := by
  induction cells generalizing k data data' with
  | nil => cases h
  | cons j rest ih =>
    by_cases hr : i ∈ rest
    · exact ih (k + 1) _ _ hr
    · obtain rfl : i = j := (List.mem_cons.1 h).resolve_right hr
      simp [placeBits, bufGet_placeBits_of_notMem _ _ _ _ _ hr, bufGet_bufSet]

/-- Placing bits on two grids that agree outside the cells of the list gives the same grid. -/
theorem placeBits_eq_of_agree {data data' : Buffer Bool} (hd : bufCanonical data) (hd' : bufCanonical data')
    (bit : Nat → Bool) (cells : List Nat) (k : Nat) (h : ∀ i, i ∉ cells → bufGet data i = bufGet data' i) :
    placeBits bit cells k data = placeBits bit cells k data' := by
  refine bufCanonical_ext (placeBits_canonical bit cells k data hd) (placeBits_canonical bit cells k data' hd')
    fun i => ?_
  by_cases hi : i ∈ cells
  · exact bufGet_placeBits_of_mem bit cells k data data' i hi
  · rw [bufGet_placeBits_of_notMem _ _ _ _ _ hi, bufGet_placeBits_of_notMem _ _ _ _ _ hi, h i hi]

/-- Placing the same bits a second time changes nothing. -/
theorem placeBits_placeBits {data : Buffer Bool} (hd : bufCanonical data) (bit : Nat → Bool) (cells : List Nat)
    (k : Nat) : placeBits bit cells k (placeBits bit cells k data) = placeBits bit cells k data :=
  placeBits_eq_of_agree (placeBits_canonical bit cells k data hd) hd bit cells k fun i hi =>
    bufGet_placeBits_of_notMem bit cells k data i hi

/-- Writing a run under placed bits and placing them again changes nothing. -/
theorem placeBits_bufWrite_placeBits {data : Buffer Bool} (hd : bufCanonical data) (bit : Nat → Bool)
    (cells : List Nat) (k base : Nat) (vs : List Bool) :
    placeBits bit cells k (bufWrite (placeBits bit cells k (bufWrite data base vs)) base vs) =
      placeBits bit cells k (bufWrite data base vs) := by
  have hw := bufWrite_canonical data base vs hd
  have hp := placeBits_canonical bit cells k _ hw
  refine placeBits_eq_of_agree (bufWrite_canonical _ base vs hp) hw bit cells k fun i hi => ?_
  rw [bufGet_bufWrite (placeBits bit cells k _), bufGet_placeBits_of_notMem _ _ _ _ _ hi, bufGet_bufWrite data]
  split <;> rfl

/-! ## The effect of a command on the state that it leaves -/

/-- Two states that agree but for five spaces are equal once those spaces are. -/
theorem eq_of_spaces {s t : State}
    (hrest : t = { s with ec := t.ec, cw := t.cw, data := t.data, rsvtag := t.rsvtag, rsvdark := t.rsvdark })
    (hec : t.ec = s.ec) (hcw : t.cw = s.cw) (hdata : t.data = s.data) (htag : t.rsvtag = s.rsvtag)
    (hdark : t.rsvdark = s.rsvdark) : t = s := by
  rw [hrest, hec, hcw, hdata, htag, hdark]

section
variable {s : State}

theorem rsrawState_rsrawState (hec : bufCanonical s.ec) (k : Nat) : rsrawState k (rsrawState k s) = rsrawState k s :=
  eq_of_spaces rfl (by simp [bufWrite_bufWrite hec]) (by simp) (by simp) (by simp) (by simp)

theorem rsblksState_rsblksState (hec : bufCanonical s.ec) (p : Symbol) :
    rsblksState p (rsblksState p s) = rsblksState p s :=
  eq_of_spaces rfl (by simp [bufWrite_bufWrite hec]) (by simp) (by simp) (by simp) (by simp)

theorem ilvState_ilvState (hcw : bufCanonical s.cw) (p : Symbol) : ilvState p (ilvState p s) = ilvState p s :=
  eq_of_spaces rfl rfl (bufWrite_bufWrite hcw 0 _) rfl rfl rfl

theorem layoutState_layoutState (hdata : bufCanonical s.data) (htag : bufCanonical s.rsvtag)
    (hdark : bufCanonical s.rsvdark) (p : Symbol) : layoutState p (layoutState p s) = layoutState p s :=
  eq_of_spaces rfl rfl rfl (bufWrite_bufWrite hdata 0 _) (bufWrite_bufWrite htag 0 _) (bufWrite_bufWrite hdark 0 _)

theorem placeState_placeState (hdata : bufCanonical s.data) (p : Symbol) :
    placeState p (placeState p s) = placeState p s :=
  eq_of_spaces rfl rfl rfl (placeBits_placeBits hdata _ _ 0) rfl rfl

end

/-! What `RUN` leaves (R111): what its tests and its first stage read stays, and the spaces that its stages write are given
in terms of those written before them. -/

@[simp] theorem runState_ver (p : Symbol) (s : State) : (runState p s).ver = s.ver := by simp [runState]
@[simp] theorem runState_ecl (p : Symbol) (s : State) : (runState p s).ecl = s.ecl := by simp [runState]
@[simp] theorem runState_dclen (p : Symbol) (s : State) : (runState p s).dclen = s.dclen := by simp [runState]
@[simp] theorem runState_cfgv (p : Symbol) (s : State) : (runState p s).cfgv = s.cfgv := by simp [runState]
@[simp] theorem runState_dc (p : Symbol) (s : State) : (runState p s).dc = s.dc := by simp [runState]

theorem runState_ec (p : Symbol) (s : State) :
    (runState p s).ec = bufWrite s.ec 0 (blocksEc p (readByte .dc s.dc)) := rfl

theorem runState_cw (p : Symbol) (s : State) :
    (runState p s).cw = bufWrite s.cw 0 (interleave p (readByte .dc s.dc) (readByte .ec (runState p s).ec)) := rfl

theorem runState_data (p : Symbol) (s : State) :
    (runState p s).data = placeBits (streamBit p.t (readByte .cw (runState p s).cw))
      (placementCells p.n (readTag (runState p s).rsvtag)) 0 (bufWrite s.data 0 ((layoutMarks p).map (·.dark))) := rfl

theorem runState_runState {s : State} (hwf : Memory.wf s) (p : Symbol) : runState p (runState p s) = runState p s := by
  obtain ⟨-, ⟨hec, -⟩, ⟨hcw, -⟩, -, ⟨hdata, -⟩, ⟨htag, -⟩, hdark, -⟩ := hwf
  have hec2 : (runState p (runState p s)).ec = (runState p s).ec := by
    simp [runState_ec, bufWrite_bufWrite hec]
  have hcw2 : (runState p (runState p s)).cw = (runState p s).cw := by
    simp [runState_cw, hec2, bufWrite_bufWrite hcw]
  have htag2 : (runState p (runState p s)).rsvtag = (runState p s).rsvtag := bufWrite_bufWrite htag 0 _
  have hdark2 : (runState p (runState p s)).rsvdark = (runState p s).rsvdark := bufWrite_bufWrite hdark 0 _
  have hdata2 : (runState p (runState p s)).data = (runState p s).data := by
    rw [runState_data p (runState p s), hcw2, htag2]
    simp [runState_data, placeBits_bufWrite_placeBits hdata]
  exact eq_of_spaces rfl hec2 hcw2 hdata2 htag2 hdark2

/-! ## What a command answers when its tests pass -/

section
variable {s : State} {p : Symbol}

theorem exec_cfg_of_tests {ver : BitVec 6} {ecl : BitVec 2} (hver : 1 ≤ ver.toNat ∧ ver.toNat ≤ vMax)
    (hp : symbolOf ver ecl = some p) :
    exec (.cfg ver ecl) s = respond (val24 (dataCount p)) (configure ver ecl s) :=
  (require_pos _ hver _ _ _).trans (withSymbol_some _ _ _ p hp _)

theorem exec_genp_of_tests {k : BitVec 8} (hk : 1 ≤ k.toNat ∧ k.toNat ≤ ecMax) :
    exec (.genp k) s = respond 0#24 (installGen k.toNat s) :=
  require_pos _ hk _ _ _

theorem exec_rsraw_of_tests {k : BitVec 8} (hk : 1 ≤ k.toNat ∧ k.toNat ≤ ecMax) (hd : 1 ≤ s.dclen.toNat)
    (hcap : s.dclen.toNat - 1 < capacity .dc) :
    exec (.rsraw k) s = respond (val24 k.toNat) (rsrawState k.toNat s) :=
  (require_pos _ hk _ _ _).trans ((require_pos _ hd _ _ _).trans (withElement_pos _ _ hcap _))

theorem exec_rsblks_of_tests (hc : s.cfgv = true) (hp : symbolOf s.ver s.ecl = some p)
    (hd : s.dclen.toNat = dataCount p) : exec .rsblks s = respond (val24 (p.b * p.e)) (rsblksState p s) :=
  (require_pos _ hc _ _ _).trans ((withSymbol_some _ _ _ p hp _).trans (require_pos _ hd _ _ _))

theorem exec_ilv_of_tests (he : s.ecv = true) (hp : symbolOf s.ver s.ecl = some p) :
    exec .ilv s = respond (val24 p.t) (ilvState p s) :=
  (require_pos _ he _ _ _).trans (withSymbol_some _ _ _ p hp _)

theorem exec_layout_of_tests (hc : s.cfgv = true) (hp : symbolOf s.ver s.ecl = some p) :
    exec .layout s = respond (val24 (unreservedCount p)) (layoutState p s) :=
  (require_pos _ hc _ _ _).trans (withSymbol_some _ _ _ p hp _)

theorem exec_place_of_tests (hcw : s.cwv = true) (hl : s.layv = true) (hp : symbolOf s.ver s.ecl = some p) :
    exec .place s = respond (val24 (placeTargets p s).length) (placeState p s) :=
  (require_pos _ hcw _ _ _).trans ((require_pos _ hl _ _ _).trans (withSymbol_some _ _ _ p hp _))

theorem exec_run_of_tests (hc : s.cfgv = true) (hp : symbolOf s.ver s.ecl = some p)
    (hd : s.dclen.toNat = dataCount p) : exec .run s = respond (val24 p.t) (runState p s) :=
  (require_pos _ hc _ _ _).trans ((withSymbol_some _ _ _ p hp _).trans (require_pos _ hd _ _ _))

end

/-! ## A command answers the same in the state that it leaves (O33) -/

/-- No command reads the response port, and every command writes it. -/
theorem exec_withResp (i : Instr) (r : Word) (s : State) : exec i (withResp r s) = exec i s := by
  cases i <;> rfl

/-- An effect that changes nothing in the state that it leaves is answered there as it was before. -/
theorem exec_eq_of_fixed {i : Instr} {s w w' : State} {v : Val} (hs : exec i s = respond v w)
    (hw : exec i w = respond v w') (hfixed : w' = w) : exec i w = exec i s :=
  hw.trans ((congrArg (respond v) hfixed).trans hs.symm)

/-- In the state that the effect of a command other than `PUSHD` leaves, its tests pass again and the effect changes
nothing. -/
theorem exec_after_effect {i : Instr} {s w : State} (hwf : Memory.wf s) (hi : ∀ b, i ≠ .pushd b)
    (heff : Effect defaultParams i s w) : exec i w = exec i s := by
  have ⟨_, ⟨hec, _⟩, ⟨hcw, _⟩, _, ⟨hdata, _⟩, ⟨htag, _⟩, ⟨hdark, _⟩⟩ := hwf
  cases heff with
  | read => rfl
  | clr => rfl
  | cfg _ _ _ p hver hp => exact exec_eq_of_fixed (exec_cfg_of_tests hver hp) (exec_cfg_of_tests hver hp) rfl
  | genp _ _ hk => exact exec_eq_of_fixed (exec_genp_of_tests hk) (exec_genp_of_tests hk) rfl
  | rsraw k _ hk hd hcap =>
    exact exec_eq_of_fixed (exec_rsraw_of_tests hk hd hcap) (exec_rsraw_of_tests hk hd hcap)
      (rsrawState_rsrawState hec k.toNat)
  | rsblks _ p hc hp hd =>
    exact exec_eq_of_fixed (exec_rsblks_of_tests hc hp hd) (exec_rsblks_of_tests hc hp hd) (rsblksState_rsblksState hec p)
  | ilv _ p he hp => exact exec_eq_of_fixed (exec_ilv_of_tests he hp) (exec_ilv_of_tests he hp) (ilvState_ilvState hcw p)
  | layout _ p hc hp =>
    exact exec_eq_of_fixed (exec_layout_of_tests hc hp) (exec_layout_of_tests hc hp)
      (layoutState_layoutState hdata htag hdark p)
  | place _ p hcwv hl hp =>
    exact exec_eq_of_fixed (exec_place_of_tests hcwv hl hp) (exec_place_of_tests hcwv hl hp)
      (placeState_placeState hdata p)
  | run _ p hc hp hd =>
    exact exec_eq_of_fixed (exec_run_of_tests hc hp hd)
      (exec_run_of_tests (by simpa using hc) (by simpa using hp) (by simpa using hd)) (runState_runState hwf p)
  | pushd b => exact absurd rfl (hi b)

/-- R15: an error recorded over a recorded one leaves `FERR`. -/
theorem recordError_recordError {code : Status} (hcode : code ≠ .ok) (code' : Status) (s : State) :
    recordError code' (recordError code s) = recordError code s := by
  have h0 : (recordError code s).ferr ≠ 0#8 := by
    by_cases hs : s.ferr = 0#8
    · simpa [hs] using fun h => hcode (statusCode_eq_zero h)
    · simp [hs]
  exact congrArg (fun f => { recordError code s with ferr := f }) (if_neg h0)

/-- A failure over a recorded error, with the response of that error, leaves the state of the first failure. -/
theorem failState_recordError {code code' : Status} (hcode : code ≠ .ok) {s : State}
    (hresp : (failState code' (recordError code s)).resp = (failState code s).resp) :
    failState code' (recordError code s) = failState code s := by
  have hword : responseWord code' 0#24 = responseWord code 0#24 := Option.some.inj hresp
  rw [failState, failState, recordError_recordError hcode, hword]

/-- A command that fails, fails in the same way again: its tests do not look at `FERR`. -/
theorem exec_failState {i : Instr} {s : State} {code : Status} (hcode : code ≠ .ok)
    (ht : exec i s = .next (failState code s)) : exec i (failState code s) = .next (failState code s) := by
  have hrdstat : i ≠ .rdstat := by
    rintro rfl
    injection ht with ht
    have hstatus := congrArg statusOf ht
    rw [statusOf_withResp, statusOf_failState] at hstatus
    exact hcode (statusCode_eq_zero hstatus.symm)
  obtain ⟨u, hu, hresp, -⟩ : ∃ u, exec i (recordError code s) = .next u ∧ u.resp = (failState code s).resp ∧ _ :=
    exec_sameAnswer hrdstat s (recordError code s).ferr _ ht
  have hagain : exec i (failState code s) = .next u := (exec_withResp i _ _).trans hu
  obtain ⟨code', -, rfl⟩ | ⟨v, w, -, rfl⟩ := exec_next hu
  · rwa [failState_recordError hcode hresp] at hagain
  · have hstatus := statusOf_withResp .ok v w
    rw [statusOf, hresp] at hstatus
    exact absurd (statusCode_eq_zero ((statusOf_failState code s).symm.trans hstatus)) hcode

/-- R39: any command but `PUSHD`, repeated at once, answers the same state again. -/
theorem exec_repeats {i : Instr} {s t : State} (hwf : Memory.wf s) (hi : ∀ b, i ≠ .pushd b) (ht : exec i s = .next t) :
    exec i t = .next t := by
  obtain ⟨code, hcode, rfl⟩ | ⟨v, w, heff, rfl⟩ := exec_next ht
  · exact exec_failState hcode ht
  · rw [exec_withResp, exec_after_effect hwf hi heff, ht]

theorem effect_of_isRead {params : Params} {i : Instr} {s w : State} (hread : isRead i = true)
    (heff : Effect params i s w) : w = s := by
  cases heff with
  | read => rfl
  | _ => cases hread

/-- R39: a read changes at most `FERR`, by a failure, and repeated at once answers the same state again, whatever the form
of the memory. -/
theorem exec_of_isRead {i : Instr} {s t : State} (hread : isRead i = true) (ht : exec i s = .next t) :
    SameButFerr s t ∧ (statusOf t = 0#8 → t.ferr = s.ferr) ∧ exec i t = .next t := by
  obtain ⟨code, hcode, rfl⟩ | ⟨v, w, heff, rfl⟩ := exec_next ht
  · exact ⟨sameButFerr_failState code s,
      fun hok => absurd (statusCode_eq_zero (statusOf_failState code s ▸ hok)) hcode, exec_failState hcode ht⟩
  · obtain rfl := effect_of_isRead hread heff
    exact ⟨sameButFerr_withResp _ _, fun _ => rfl, by rw [exec_withResp, ht]⟩

/-- R120: a codeword that `PUSHD` appends is counted. -/
theorem dclen_after_pushd {b : BitVec 8} {s t : State} (ht : exec (.pushd b) s = .next t) (hok : statusOf t = 0#8) :
    t.dclen.toNat = s.dclen.toNat + 1 := by
  obtain ⟨v, w, heff, rfl⟩ := exec_next_ok ht hok
  cases heff with
  | read _ _ hi => cases hi
  | pushd _ _ hd =>
    have hlt : s.dclen.toNat < 2956 := hd
    simp only [withResp_dclen, pushState_dclen]
    bv_omega

/-- Settles O33: reads by `exec_of_isRead`, two `PUSHD` by their counts, every other command by `exec_repeats`. -/
theorem readsAreFreeOthersIdempotent : Obligations.ReadsAreFreeOthersIdempotent := by
  refine ⟨fun i s t hread ht => ?_, fun b s t u ht hokt hu hoku => ?_, fun i s t hwf hi ht => exec_repeats hwf hi ht⟩
  · obtain ⟨hsame, hferr, hagain⟩ := exec_of_isRead hread ht
    refine ⟨hsame, hferr, fun u hu => ?_⟩
    rw [hagain] at hu
    injection hu with hu
    rw [hu]
  · rw [dclen_after_pushd hu hoku, dclen_after_pushd ht hokt]

end Sys2Proof.Proofs
end

section
/-! SUPPORT. The decoder reads the opcode and format columns of R44, `WellFormed` reads the match and mask columns: the two
sort every word alike, and so every word is answered as R45 says (O24). -/

namespace Sys2Proof.Proofs

open Sys2Proof.Machine

/-! ## Words by their opcode and argument -/

/-- R41: `arg = w[23:0]`. -/
def argOf (w : Word) : Val := w.extractLsb' 0 24

/-- R41: a word is its opcode over its argument. -/
theorem opOf_append_argOf (w : Word) : opOf w ++ argOf w = w :=
  BitVec.extractLsb'_append_extractLsb' (w := 8) (len := 24)

@[simp] theorem opOf_append (op : Byte) (arg : Val) : opOf (op ++ arg) = op :=
  BitVec.extractLsb'_append_eq_left

@[simp] theorem argOf_append (op : Byte) (arg : Val) : argOf (op ++ arg) = arg :=
  BitVec.extractLsb'_append_eq_right

/-- Two words are equal when their opcodes and their arguments are. -/
theorem word_eq_iff {w w' : Word} : w = w' ↔ opOf w = opOf w' ∧ argOf w = argOf w' := by
  refine ⟨fun h => h ▸ ⟨rfl, rfl⟩, fun ⟨hop, harg⟩ => ?_⟩
  rw [← opOf_append_argOf w, hop, harg, opOf_append_argOf]

@[simp] theorem opOf_and (w m : Word) : opOf (w &&& m) = opOf w &&& opOf m := BitVec.extractLsb'_and

@[simp] theorem argOf_and (w m : Word) : argOf (w &&& m) = argOf w &&& argOf m := BitVec.extractLsb'_and

/-! ## A row's match and mask against its opcode and reserved bits -/

/-- The match column of a row: its opcode, every other bit 0. -/
def rowMatch (row : DecodeRow) : Word := row.op ++ 0#24

/-- The mask column of a row: the opcode's bits and the reserved bits of its format. -/
def rowMask (row : DecodeRow) : Word := 0xFF#8 ++ argOf row.reserved

section
variable (row : DecodeRow)

@[simp] theorem opOf_rowMatch : opOf (rowMatch row) = row.op := opOf_append _ _
@[simp] theorem argOf_rowMatch : argOf (rowMatch row) = 0#24 := argOf_append _ _
@[simp] theorem opOf_rowMask : opOf (rowMask row) = 0xFF#8 := opOf_append _ _
@[simp] theorem argOf_rowMask : argOf (rowMask row) = argOf row.reserved := argOf_append _ _

end

/-- A mask that holds every bit of the opcode keeps it. -/
theorem opOf_and_of_opOf_mask (w : Word) {m : Word} (hm : opOf m = 0xFF#8) : opOf (w &&& m) = opOf w := by
  rw [opOf_and, hm]
  exact BitVec.and_allOnes

/-- R44: the match and mask columns are those of the decoder's rows, in the table's order. -/
theorem matchMask_eq_map : WellFormed.matchMask = decodeRows.map fun row => (rowMatch row, rowMask row) := by
  decide

/-- R43: no format reserves a bit of the opcode. -/
theorem opOf_reserved : ∀ row ∈ decodeRows, opOf row.reserved = 0#8 := by decide

/-- A word keeps the match of a row under the opcode mask exactly when it has the row's opcode. -/
theorem and_opMask_eq_rowMatch_iff (w : Word) (row : DecodeRow) :
    w &&& 0xFF000000#32 = rowMatch row ↔ row.op = opOf w := by
  have harg : argOf (w &&& 0xFF000000#32) = 0#24 := by
    rw [argOf_and]
    exact BitVec.and_zero
  rw [word_eq_iff, opOf_and_of_opOf_mask w (by decide), harg]
  simp [eq_comm]

/-- A word meets the mask and match of a row exactly when it has the row's opcode and no reserved bit of its format. -/
theorem and_rowMask_eq_rowMatch_iff (w : Word) {row : DecodeRow} (hrow : row ∈ decodeRows) :
    w &&& rowMask row = rowMatch row ↔ row.op = opOf w ∧ w &&& row.reserved = 0#32 := by
  have hop : opOf (w &&& row.reserved) = 0#8 := by
    rw [opOf_and, opOf_reserved row hrow]
    exact BitVec.and_zero
  rw [word_eq_iff, word_eq_iff (w' := 0#32), opOf_and_of_opOf_mask w (opOf_rowMask row), hop]
  simp [show opOf 0#32 = 0#8 by decide, show argOf 0#32 = 0#24 by decide, eq_comm (a := row.op)]

theorem knownOp_iff (w : Word) : WellFormed.knownOp w = true ↔ ∃ row ∈ decodeRows, row.op = opOf w := by
  simp [WellFormed.knownOp, matchMask_eq_map, and_opMask_eq_rowMatch_iff]

theorem wellFormedWord_iff (w : Word) :
    WellFormed.word w = true ↔ ∃ row ∈ decodeRows, row.op = opOf w ∧ w &&& row.reserved = 0#32 := by
  rw [WellFormed.word, matchMask_eq_map, List.any_map, List.any_eq_true]
  refine exists_congr fun row => and_congr_right fun hrow => ?_
  exact beq_iff_eq.trans (and_rowMask_eq_rowMatch_iff w hrow)

/-! ## What the decoder answers -/

/-- R44: an opcode has one row. -/
theorem decodeRow_unique {row row' : DecodeRow} (hrow : row ∈ decodeRows) (hrow' : row' ∈ decodeRows)
    (hop : row.op = row'.op) : row = row' :=
  List.inj_on_of_nodup_map (f := DecodeRow.op) (by decide) hrow hrow' hop

/-- R46: a word with the opcode of a row is sorted by the reserved bits of that row. -/
theorem decode_of_row {w : Word} {row : DecodeRow} (hrow : row ∈ decodeRows) (hop : row.op = opOf w) :
    decode w = if w &&& row.reserved = 0#32 then .wellFormed (row.build w) else .malformed := by
  obtain ⟨row', hfind⟩ : ∃ row', decodeRows.find? (fun r => r.op == opOf w) = some row' :=
    Option.isSome_iff_exists.1 (List.find?_isSome.2 ⟨row, hrow, beq_iff_eq.2 hop⟩)
  have hop' := beq_iff_eq.1 (List.find?_some (p := fun r : DecodeRow => r.op == opOf w) hfind)
  obtain rfl : row' = row := decodeRow_unique (List.mem_of_find?_eq_some hfind) hrow (hop'.trans hop.symm)
  rw [decode, hfind]

/-- R45 item 1. -/
theorem decode_of_unknownOp {w : Word} (h : WellFormed.knownOp w = false) : decode w = .illegal := by
  have hfind : decodeRows.find? (fun r => r.op == opOf w) = none :=
    List.find?_eq_none.2 fun row hrow hop =>
      Bool.eq_false_iff.1 h ((knownOp_iff w).2 ⟨row, hrow, beq_iff_eq.1 hop⟩)
  rw [decode, hfind]

/-- R45 item 2. -/
theorem decode_of_reservedBits {w : Word} (hknown : WellFormed.knownOp w = true) (hword : WellFormed.word w = false) :
    decode w = .malformed := by
  obtain ⟨row, hrow, hop⟩ := (knownOp_iff w).1 hknown
  rw [decode_of_row hrow hop, if_neg]
  exact fun hres => Bool.eq_false_iff.1 hword ((wellFormedWord_iff w).2 ⟨row, hrow, hop, hres⟩)

/-- R45 item 3. -/
theorem decode_of_wellFormedWord {w : Word} (hword : WellFormed.word w = true) : ∃ i, decode w = .wellFormed i := by
  obtain ⟨row, hrow, hop, hres⟩ := (wellFormedWord_iff w).1 hword
  exact ⟨row.build w, by rw [decode_of_row hrow hop, if_pos hres]⟩

/-! ## What a word of each kind is answered -/

theorem runWord_of_illegal {w : Word} (h : decode w = .illegal) (s : State) :
    runWord w s = .next (failState .badOp s) := by
  simp only [runWord, runWordBy, h, failWith_eq]

theorem runWord_of_malformed {w : Word} (h : decode w = .malformed) (s : State) :
    runWord w s = .next (failState .badArg s) := by
  simp only [runWord, runWordBy, h, failWith_eq]

theorem runWord_of_wellFormed {w : Word} {i : Instr} (h : decode w = .wellFormed i) (s : State) :
    runWord w s = exec i s := by
  simp only [runWord, runWordBy, h]

/-- Settles O24: the match and mask columns sort a word as the decoder does, and each kind of word has its answer. -/
theorem wordsAreSortedAndRefused : Obligations.WordsAreSortedAndRefused := by
  refine fun w s => ⟨fun hop => ?_, fun hknown hword => ?_, fun hword => ?_⟩
  · exact runWord_of_illegal (decode_of_unknownOp hop) s
  · exact runWord_of_malformed (decode_of_reservedBits hknown hword) s
  · obtain ⟨i, hi⟩ := decode_of_wellFormedWord hword
    exact ⟨i, hi, runWord_of_wellFormed hi s⟩

end Sys2Proof.Proofs
end

section
/-! SUPPORT. GF(256): the product is additive in both arguments, so its laws need only be checked on single bits; 2 has
order 255, so its powers are all the nonzero bytes (O44), the logarithm inverts them (O45), and the product has its table
form (O46). -/

namespace Sys2Proof.Proofs

open Sys2Proof.Machine Sys2Proof.Safety

/-! ## The product is additive in both arguments (R51) -/

/-- Two conditional exclusive-ors of one term cancel: the term is in the sum when just one condition holds. -/
theorem ite_xor_ite {n : Nat} (p q : Bool) (x y t : BitVec n) :
    (if p then x ^^^ t else x) ^^^ (if q then y ^^^ t else y) = if p ^^ q then x ^^^ y ^^^ t else x ^^^ y := by
  have hcancel : x ^^^ t ^^^ (y ^^^ t) = x ^^^ y := by
    rw [BitVec.xor_assoc, BitVec.xor_comm y, ← BitVec.xor_assoc t, BitVec.xor_self, BitVec.zero_xor]
  cases p <;> cases q
  · rfl
  · exact (BitVec.xor_assoc x y t).symm
  · show x ^^^ t ^^^ y = x ^^^ y ^^^ t
    ac_rfl
  · exact hcancel

theorem gfProduct_xor_right (a b c : Byte) : gfProduct a (b ^^^ c) = gfProduct a b ^^^ gfProduct a c := by
  refine List.foldl_hom₂ (List.range 8) (· ^^^ ·) _ _ _ 0#15 0#15 fun r r' i => ?_
  rw [BitVec.getLsbD_xor]
  exact ite_xor_ite _ _ r r' _

theorem gfProduct_xor_left (a b c : Byte) : gfProduct (a ^^^ b) c = gfProduct a c ^^^ gfProduct b c := by
  refine List.foldl_hom₂ (List.range 8) (· ^^^ ·) _ _ _ 0#15 0#15 fun r r' i => ?_
  rw [BitVec.setWidth_xor, BitVec.shiftLeft_xor_distrib]
  cases c.getLsbD i
  · rfl
  · simp only [if_true]
    ac_rfl

theorem gfReduce_xor (r r' : BitVec 15) : gfReduce (r ^^^ r') = gfReduce r ^^^ gfReduce r' := by
  refine List.foldl_hom₂ _ (· ^^^ ·) _ _ _ r r' fun x y i => ?_
  rw [BitVec.getLsbD_xor]
  exact ite_xor_ite _ _ x y _

theorem gfMul_xor_right (a b c : Byte) : gfMul a (b ^^^ c) = gfMul a b ^^^ gfMul a c := by
  rw [gfMul, gfProduct_xor_right, gfReduce_xor, BitVec.setWidth_xor]
  rfl

theorem gfMul_xor_left (a b c : Byte) : gfMul (a ^^^ b) c = gfMul a c ^^^ gfMul b c := by
  rw [gfMul, gfProduct_xor_left, gfReduce_xor, BitVec.setWidth_xor]
  rfl

/-! ## Laws of the product, from its values on single bits -/

/-- A byte is the exclusive-or of its single bits. -/
theorem byte_eq_foldl_bits (a : Byte) :
    a = (List.range 8).foldl (fun r i => if a.getLsbD i then r ^^^ 1#8 <<< i else r) 0#8 := by
  revert a; decide +kernel

/-- What holds of the single bits and is kept by exclusive-or holds of every byte. -/
theorem byte_induction {P : Byte → Prop} (hbit : ∀ i < 8, P (1#8 <<< i)) (hxor : ∀ a b, P a → P b → P (a ^^^ b))
    (a : Byte) : P a := by
  have hzero : P 0#8 := hxor 1#8 1#8 (hbit 0 (by decide)) (hbit 0 (by decide))
  rw [byte_eq_foldl_bits a]
  refine List.foldlRecOn _ _ hzero fun r hr i hi => ?_
  split
  · exact hxor _ _ hr (hbit i (List.mem_range.1 hi))
  · exact hr

theorem gfMul_comm (a b : Byte) : gfMul a b = gfMul b a := by
  induction a using byte_induction with
  | hxor a a' ha ha' => rw [gfMul_xor_left, gfMul_xor_right, ha, ha']
  | hbit i hi =>
    induction b using byte_induction with
    | hxor b b' hb hb' => rw [gfMul_xor_left, gfMul_xor_right, hb, hb']
    | hbit j hj => revert i j; decide +kernel

theorem gfMul_assoc (a b c : Byte) : gfMul (gfMul a b) c = gfMul a (gfMul b c) := by
  induction a using byte_induction with
  | hxor a a' ha ha' => rw [gfMul_xor_left, gfMul_xor_left, gfMul_xor_left, ha, ha']
  | hbit i hi =>
    induction b using byte_induction with
    | hxor b b' hb hb' => rw [gfMul_xor_right, gfMul_xor_left, gfMul_xor_left, gfMul_xor_right, hb, hb']
    | hbit j hj =>
      induction c using byte_induction with
      | hxor c c' hc hc' => rw [gfMul_xor_right, gfMul_xor_right, gfMul_xor_right, hc, hc']
      | hbit k hk => revert i j k; decide +kernel

@[simp] theorem gfMul_zero (a : Byte) : gfMul a 0#8 = 0#8 := by
  simpa using gfMul_xor_right a 0#8 0#8

@[simp] theorem zero_gfMul (a : Byte) : gfMul 0#8 a = 0#8 := by
  rw [gfMul_comm, gfMul_zero]

@[simp] theorem gfMul_one (a : Byte) : gfMul a 1#8 = a := by
  induction a using byte_induction with
  | hxor a b ha hb => rw [gfMul_xor_left, ha, hb]
  | hbit i hi => revert i; decide

/-- R52: doubling is a shift, reduced by `0x11D` when bit 8 comes up. -/
theorem gfMul_two (a : Byte) : gfMul a 2#8 = if a.getLsbD 7 then (a <<< 1) ^^^ 0x1D#8 else a <<< 1 := by
  revert a; decide +kernel

/-! ## The powers of 2 (R52) -/

theorem gfExp_succ (i : Nat) : gfExp (i + 1) = gfMul (gfExp i) 2#8 := rfl

theorem gfExp_add (i j : Nat) : gfExp (i + j) = gfMul (gfExp i) (gfExp j) := by
  induction j with
  | zero => exact (gfMul_one _).symm
  | succ j ih => rw [← Nat.add_assoc, gfExp_succ, ih, gfMul_assoc, gfExp_succ]

theorem gfExp_eq_iterate (i : Nat) : gfExp i = (gfMul · 2#8)^[i] 1#8 := by
  induction i with
  | zero => rfl
  | succ i ih => rw [Function.iterate_succ_apply', ← ih, gfExp_succ]

theorem gfExp_17 : gfExp 17 = 0x98#8 := by decide +kernel

theorem gfExp_51 : gfExp 51 = 0x0A#8 := by
  rw [show 51 = 17 + 17 + 17 from rfl, gfExp_add, gfExp_add, gfExp_17]; decide +kernel

theorem gfExp_85 : gfExp 85 = 0xD6#8 := by
  rw [show 85 = 51 + 17 + 17 from rfl, gfExp_add, gfExp_add, gfExp_51, gfExp_17]; decide +kernel

theorem gfExp_255 : gfExp 255 = 1#8 := by
  rw [show 255 = 85 + 85 + 85 from rfl, gfExp_add, gfExp_add, gfExp_85]; decide +kernel

/-- The order of 2 divides 255 and none of 255/3, 255/5, 255/17: it is 255 (2 is primitive). -/
theorem minimalPeriod_double : Function.minimalPeriod (gfMul · 2#8) 1#8 = 255 := by
  have hperiod (n : Nat) : Function.minimalPeriod (gfMul · 2#8) 1#8 ∣ n ↔ gfExp n = 1#8 := by
    rw [← Function.isPeriodicPt_iff_minimalPeriod_dvd, gfExp_eq_iterate]
    rfl
  have hdiv : ∀ m ∈ Nat.divisors 255, m = 255 ∨ m ∣ 85 ∨ m ∣ 51 ∨ m ∣ 15 := by decide
  obtain h | h | h | h := hdiv _ (Nat.mem_divisors.2 ⟨(hperiod 255).2 gfExp_255, by decide⟩)
  · exact h
  · exact absurd ((hperiod 85).1 h) (gfExp_85 ▸ by decide)
  · exact absurd ((hperiod 51).1 h) (gfExp_51 ▸ by decide)
  · exact absurd ((hperiod 15).1 h) (by decide +kernel)

theorem gfExp_mod (i : Nat) : gfExp (i % 255) = gfExp i := by
  rw [gfExp_eq_iterate, gfExp_eq_iterate, ← minimalPeriod_double]
  exact Function.iterate_mod_minimalPeriod_eq

theorem gfExp_injective {i j : Nat} (hi : i ≤ 254) (hj : j ≤ 254) (h : gfExp i = gfExp j) : i = j := by
  rw [gfExp_eq_iterate, gfExp_eq_iterate] at h
  refine (Function.iterate_eq_iterate_iff_of_lt_minimalPeriod ?_ ?_).1 h <;> rw [minimalPeriod_double] <;> omega

/-- `gf_exp(254 * i)` is the inverse of `gf_exp(i)`, because `255 * i` counts as 0. -/
theorem gfMul_gfExp_inverse (i : Nat) : gfMul (gfExp i) (gfExp (254 * i)) = 1#8 := by
  rw [← gfExp_add, ← gfExp_mod, show (i + 254 * i) % 255 = 0 by omega]
  rfl

theorem gfExp_ne_zero (i : Nat) : gfExp i ≠ 0#8 := by
  intro h
  have hinv := gfMul_gfExp_inverse i
  rw [h, zero_gfMul] at hinv
  exact absurd hinv (by decide)

/-- The 255 distinct powers are 255 of the 255 nonzero bytes. -/
theorem exists_gfExp_eq {a : Byte} (ha : a ≠ 0#8) : ∃ i, i ≤ 254 ∧ gfExp i = a := by
  have hpos {b : Byte} (hb : b ≠ 0#8) : b.toNat ∈ Finset.Icc 1 255 := by
    rw [Finset.mem_Icc]
    bv_omega
  have himage : (Finset.range 255).image (fun i => (gfExp i).toNat) = Finset.Icc 1 255 := by
    refine Finset.eq_of_subset_of_card_le ?_ ?_
    · exact Finset.image_subset_iff.2 fun i _ => hpos (gfExp_ne_zero i)
    · rw [Finset.card_image_of_injOn, Nat.card_Icc, Finset.card_range]
      intro i hi j hj h
      rw [Finset.coe_range, Set.mem_Iio] at hi hj
      exact gfExp_injective (by omega) (by omega) (BitVec.eq_of_toNat_eq h)
  obtain ⟨i, hi, h⟩ := Finset.mem_image.1 (himage ▸ hpos ha)
  exact ⟨i, Nat.le_of_lt_succ (Finset.mem_range.1 hi), BitVec.eq_of_toNat_eq h⟩

/-- Settles O44: the order of 2 is 255, so its powers are distinct, and there are as many as nonzero bytes. -/
theorem gfExpListsPowersOfTwo : Obligations.GfExpListsPowersOfTwo :=
  ⟨rfl, gfExp_succ, fun i => gfMul_two (gfExp i), gfExp_255, fun _ _ => gfExp_injective, fun _ => exists_gfExp_eq,
    gfExp_ne_zero⟩

/-! ## The logarithm (R53) -/

/-- The search for the logarithm finds the first exponent whose power is `a`. -/
theorem gfLogFrom_gfExp (a : Byte) (fuel i : Nat) :
    gfLogFrom a fuel i (gfExp i) = (List.range' i fuel).find? fun n => decide (gfExp n = a) := by
  induction fuel generalizing i with
  | zero => rfl
  | succ fuel ih =>
    rw [gfLogFrom, List.range'_succ, List.find?_cons, ← gfExp_succ, ih]
    by_cases h : gfExp i = a <;> simp [h]

theorem gfLog_eq_some_iff {a : Byte} {i : Nat} : gfLog a = some i ↔ i ≤ 254 ∧ gfExp i = a := by
  have hsearch : gfLog a = (List.range' 0 255).find? fun n => decide (gfExp n = a) := gfLogFrom_gfExp a 255 0
  have hsound {j : Nat} (hj : gfLog a = some j) : j ≤ 254 ∧ gfExp j = a := by
    rw [hsearch] at hj
    have hmem := List.mem_of_find?_eq_some hj
    have hexp := List.find?_some hj
    simp only [List.mem_range'_1, decide_eq_true_eq] at hmem hexp
    exact ⟨by omega, hexp⟩
  refine ⟨hsound, fun ⟨hi, hexp⟩ => ?_⟩
  obtain ⟨j, hj⟩ : ∃ j, gfLog a = some j := by
    rw [hsearch, ← Option.isSome_iff_exists, List.find?_isSome]
    exact ⟨i, List.mem_range'_1.2 (by omega), decide_eq_true hexp⟩
  obtain ⟨hj254, hexpj⟩ := hsound hj
  rw [hj, gfExp_injective hj254 hi (hexpj.trans hexp.symm)]

theorem gfLog_zero : gfLog 0#8 = none :=
  Option.eq_none_iff_forall_ne_some.2 fun i hi => gfExp_ne_zero i (gfLog_eq_some_iff.1 hi).2

/-- Settles O45: the search finds the one exponent in `0 .. 254`, and there is one for every nonzero byte. -/
theorem gfLogInvertsGfExp : Obligations.GfLogInvertsGfExp := by
  refine ⟨gfLog_zero, fun i hi => gfLog_eq_some_iff.2 ⟨hi, rfl⟩, fun a ha => ?_⟩
  obtain ⟨i, hi, hexp⟩ := exists_gfExp_eq ha
  exact ⟨i, hi, gfLog_eq_some_iff.2 ⟨hi, hexp⟩, hexp⟩

/-- Settles O46: the product of two powers of 2 is the power of the sum of the exponents, which counts modulo 255. -/
theorem gfMulEqualsTableForm : Obligations.GfMulEqualsTableForm := by
  refine ⟨fun a b h => ?_, fun a b i j ha hb => ?_⟩
  · obtain rfl | rfl := h
    · exact zero_gfMul b
    · exact gfMul_zero a
  · rw [gfExp_mod, gfExp_add, (gfLog_eq_some_iff.1 ha).2, (gfLog_eq_some_iff.1 hb).2]

end Sys2Proof.Proofs
end

section
/-! SUPPORT. The generator polynomial: one turn of its loop multiplies the value at every point by `x ^^^ a`, so `gen_poly(k)`
vanishes at the first `k` powers of 2 (O47). -/

namespace Sys2Proof.Proofs

open Sys2Proof.Machine Sys2Proof.Safety

/-! ## Exclusive-or of coefficient lists -/

/-- On lists of one length, `xorInto` is the exclusive-or element by element. -/
theorem xorInto_eq_xorBytes {xs ys : List Byte} (h : xs.length = ys.length) : xorInto xs ys = xorBytes xs ys := by
  induction xs generalizing ys with
  | nil => rfl
  | cons x xs ih =>
    cases ys with
    | nil => cases h
    | cons y ys => rw [xorInto, ih (Nat.succ.inj h)]; rfl

@[simp] theorem length_xorInto (xs ys : List Byte) : (xorInto xs ys).length = xs.length := by
  induction xs generalizing ys with
  | nil => rfl
  | cons x xs ih => cases ys <;> simp [xorInto, ih]

/-- R55, one turn of the loop: `g` shifted up by one power, exclusive-or `g` times `a`. -/
theorem polyTimesRoot_eq_xorBytes (g : List Byte) (a : Byte) :
    polyTimesRoot g a = xorBytes (g ++ [0#8]) (0#8 :: g.map (gfMul · a)) :=
  xorInto_eq_xorBytes (by simp)

/-! ## Horner's rule -/

/-- Horner's rule is additive, on the start value too. -/
theorem foldl_horner_xorBytes (x : Byte) {bs cs : List Byte} (h : bs.length = cs.length) (y z : Byte) :
    (xorBytes bs cs).foldl (fun y b => gfMul y x ^^^ b) (y ^^^ z) =
      bs.foldl (fun y b => gfMul y x ^^^ b) y ^^^ cs.foldl (fun y b => gfMul y x ^^^ b) z := by
  induction bs generalizing cs y z with
  | nil => obtain rfl := List.length_eq_zero_iff.1 h.symm; rfl
  | cons b bs ih =>
    obtain _ | ⟨c, cs⟩ := cs
    · cases h
    · have hstep : gfMul (y ^^^ z) x ^^^ (b ^^^ c) = (gfMul y x ^^^ b) ^^^ (gfMul z x ^^^ c) := by
        rw [gfMul_xor_left]; ac_rfl
      show (xorBytes bs cs).foldl _ (gfMul (y ^^^ z) x ^^^ (b ^^^ c)) = _
      rw [hstep, ih (Nat.succ.inj h)]
      rfl

theorem polyEval_xorBytes {bs cs : List Byte} (h : bs.length = cs.length) (x : Byte) :
    polyEval (xorBytes bs cs) x = polyEval bs x ^^^ polyEval cs x :=
  foldl_horner_xorBytes x h 0#8 0#8

theorem polyEval_append_zero (bs : List Byte) (x : Byte) : polyEval (bs ++ [0#8]) x = gfMul (polyEval bs x) x := by
  simp [polyEval]

theorem polyEval_zero_cons (bs : List Byte) (x : Byte) : polyEval (0#8 :: bs) x = polyEval bs x := by
  simp [polyEval]

theorem polyEval_map_gfMul (bs : List Byte) (a x : Byte) :
    polyEval (bs.map (gfMul · a)) x = gfMul (polyEval bs x) a := by
  have hstep (y b : Byte) : gfMul (gfMul y a) x ^^^ gfMul b a = gfMul (gfMul y x ^^^ b) a := by
    rw [gfMul_xor_left, gfMul_assoc, gfMul_comm a, ← gfMul_assoc]
  rw [polyEval, List.foldl_map, ← zero_gfMul a]
  exact List.foldl_hom (gfMul · a) hstep

/-- R55: one turn of the loop multiplies by `x - a`, which is `x ^^^ a`. -/
theorem polyEval_polyTimesRoot (g : List Byte) (a x : Byte) :
    polyEval (polyTimesRoot g a) x = gfMul (polyEval g x) (x ^^^ a) := by
  rw [polyTimesRoot_eq_xorBytes, polyEval_xorBytes (by simp), polyEval_append_zero, polyEval_zero_cons,
    polyEval_map_gfMul, gfMul_xor_right]

/-! ## The generator polynomial (R55) -/

theorem genPoly_succ (k : Nat) : genPoly (k + 1) = polyTimesRoot (genPoly k) (gfExp k) := by
  simp [genPoly, List.range_succ]

@[simp] theorem length_genPoly (k : Nat) : (genPoly k).length = k + 1 := by
  induction k with
  | zero => rfl
  | succ k ih => simp [genPoly_succ, polyTimesRoot, ih]

theorem polyEval_genPoly {k i : Nat} (h : i < k) : polyEval (genPoly k) (gfExp i) = 0#8 := by
  induction k with
  | zero => exact absurd h (Nat.not_lt_zero i)
  | succ k ih =>
    rw [genPoly_succ, polyEval_polyTimesRoot]
    obtain h | rfl := Nat.lt_succ_iff_lt_or_eq.1 h
    · rw [ih h, zero_gfMul]
    · rw [BitVec.xor_self, gfMul_zero]

/-- The constant term is the product of the roots, `2^(0 + 1 + ... + (k-1))`. -/
theorem getElem?_genPoly_last (k : Nat) : (genPoly k)[k]? = some (gfExp (k * (k - 1) / 2)) := by
  induction k with
  | zero => rfl
  | succ k ih =>
    rw [genPoly_succ, polyTimesRoot_eq_xorBytes, xorBytes, List.getElem?_zipWith, List.getElem?_cons_succ,
      List.getElem?_map, ih, Nat.triangle_succ, gfExp_add]
    simp

/-- Settles O47: the roots by `polyEval_polyTimesRoot`, the constant term as the product of the roots. -/
theorem genPolyHasTheRoots : Obligations.GenPolyHasTheRoots := by
  refine fun k => ⟨length_genPoly k, head?_genPoly k, fun i => polyEval_genPoly, ?_, ?_⟩
  · rw [gfExp_mod, getElem?_genPoly_last]
  · rw [getElem?_genPoly_last]
    exact fun h => gfExp_ne_zero _ (Option.some.inj h)

end Sys2Proof.Proofs
end

section
/-! SUPPORT. The field and Reed-Solomon commands: the word of each (R44), what it refuses, and what it leaves
(O6 to O11). -/

namespace Sys2Proof.Proofs

open Sys2Proof.Machine Sys2Proof.Safety

/-! ## The words of one row of R44 -/

/-- A row of the decoder decides the words with its opcode: well-formed where the argument has no reserved bit,
`E_BADARG` where it has one. -/
theorem encodedAs_of_row {row : DecodeRow} (hrow : row ∈ decodeRows) {op : Byte} (hop : row.op = op) {reserved : Val}
    (hres : row.reserved = 0#8 ++ reserved) {build : Val → Instr}
    (hbuild : ∀ arg, row.build (op ++ arg) = build arg) : EncodedAs op reserved build := by
  intro arg
  have hdecode : decode (op ++ arg) = if arg &&& reserved = 0#24 then .wellFormed (build arg) else .malformed := by
    have hiff : (op ++ arg) &&& row.reserved = 0#32 ↔ arg &&& reserved = 0#24 := by
      rw [hres, BitVec.and_append, word_eq_iff, opOf_append, argOf_append]
      exact and_iff_right BitVec.and_zero
    rw [decode_of_row hrow (hop.trans (opOf_append op arg).symm), hbuild]
    simp only [hiff]
  refine ⟨fun h => by rw [hdecode, if_pos h], fun h s => ?_⟩
  exact runWord_of_malformed (by rw [hdecode, if_neg h]) s

/-- A field of the argument is read from the argument, whatever the opcode. -/
theorem extractLsb'_append_arg (op : Byte) (arg : Val) {start len : Nat} (h : start + len ≤ 24) :
    (op ++ arg : Word).extractLsb' start len = arg.extractLsb' start len :=
  BitVec.extractLsb'_append_eq_of_add_le h

@[simp] theorem fieldB_append (op : Byte) (arg : Val) : fieldB (op ++ arg) = arg.extractLsb' 0 8 :=
  extractLsb'_append_arg op arg (by decide)

@[simp] theorem fieldA_append (op : Byte) (arg : Val) : fieldA (op ++ arg) = arg.extractLsb' 8 8 :=
  extractLsb'_append_arg op arg (by decide)

/-- Format F0: no operand. -/
theorem encodedAs_F0 {op : Byte} {i : Instr} (hrow : ⟨op, reservedF0, fun _ => i⟩ ∈ decodeRows) :
    EncodedAs op 0xFFFFFF#24 fun _ => i :=
  encodedAs_of_row hrow rfl rfl fun _ => rfl

/-- Format FB: one byte. -/
theorem encodedAs_FB {op : Byte} {mk : BitVec 8 → Instr}
    (hrow : ⟨op, reservedFB, fun w => mk (fieldB w)⟩ ∈ decodeRows) :
    EncodedAs op 0xFFFF00#24 fun arg => mk (arg.extractLsb' 0 8) :=
  encodedAs_of_row hrow rfl rfl fun arg => congrArg mk (fieldB_append op arg)

/-- Format FP: two bytes. -/
theorem encodedAs_FP {op : Byte} {mk : BitVec 8 → BitVec 8 → Instr}
    (hrow : ⟨op, reservedFP, fun w => mk (fieldA w) (fieldB w)⟩ ∈ decodeRows) :
    EncodedAs op 0xFF0000#24 fun arg => mk (arg.extractLsb' 8 8) (arg.extractLsb' 0 8) :=
  encodedAs_of_row hrow rfl rfl fun arg => congrArg₂ mk (fieldA_append op arg) (fieldB_append op arg)

/-! ## Answers in the vocabulary of the statements -/

section
variable {i : Instr} {s : State}

theorem failsWith_of_exec {code : Status} (h : exec i s = .next (failState code s)) :
    FailsWith i s (statusCode code) := h

theorem reads_of_exec {v : Val} (h : exec i s = respond v s) : Reads i s v := h

theorem completesIn_of_exec {w : State} {v : Val} (h : exec i s = respond v w) :
    CompletesIn i s (withResp (responseWord .ok v) w) v := ⟨h, rfl⟩

end

/-! ## The field commands (R58 to R60) -/

theorem gfmul_reads (a b : BitVec 8) (s : State) : Reads (.gfmul a b) s ((gfMul a b).setWidth 24) :=
  reads_of_exec rfl

/-- Settles O6: `GFMUL` answers the product in every state; the corner cases are products with 0 and the rule's example. -/
theorem gfmulAnswersProduct : Obligations.GfmulAnswersProduct := by
  refine ⟨encodedAs_FP (by simp [decodeRows]), gfmul_reads, fun a s => ⟨?_, ?_⟩, fun s => ?_⟩
  · simpa using gfmul_reads a 0#8 s
  · simpa using gfmul_reads 0#8 a s
  · have hprod : gfMul 0xB4#8 0x0D#8 = 0x97#8 := by decide +kernel
    simpa [hprod] using gfmul_reads 0xB4#8 0x0D#8 s

theorem exec_gfexp_of_range {i : BitVec 8} (hi : ¬ i.toNat ≤ 254) (s : State) :
    exec (.gfexp i) s = .next (failState .range s) :=
  require_neg _ hi _ _ _

/-- Settles O7: the one test of `GFEXP` fails for 255 and passes for every other exponent. -/
theorem gfexpAnswersPower : Obligations.GfexpAnswersPower := by
  refine ⟨encodedAs_FB (by simp [decodeRows]), fun s => ?_, fun i s hi => ?_⟩
  · exact failsWith_of_exec (exec_gfexp_of_range (by decide) s)
  · exact reads_of_exec (require_pos _ hi _ _ _)

theorem exec_gflog_of_none {a : BitVec 8} (h : gfLog a = none) (s : State) :
    exec (.gflog a) s = .next (failState .precond s) := by
  show execGflog a s = _
  rw [execGflog, h, failWith_eq]

theorem exec_gflog_of_some {a : BitVec 8} {n : Nat} (h : gfLog a = some n) (s : State) :
    exec (.gflog a) s = respond (val24 n) s := by
  show execGflog a s = _
  rw [execGflog, h]

/-- Settles O8: 0 has no logarithm, and every other byte is a power of 2. -/
theorem gflogAnswersLogarithm : Obligations.GflogAnswersLogarithm := by
  refine ⟨encodedAs_FB (by simp [decodeRows]), fun s => ?_, fun a s ha => ?_⟩
  · exact failsWith_of_exec (exec_gflog_of_none gfLog_zero s)
  · obtain ⟨n, hn, hexp⟩ := exists_gfExp_eq ha
    exact ⟨n, hn, hexp, reads_of_exec (exec_gflog_of_some (gfLog_eq_some_iff.2 ⟨hn, hexp⟩) s)⟩

/-! ## The generator polynomial in `GEN` (R61) -/

theorem holdsGenerator_installGen {k : Nat} (hk : k ≤ ecMax) (s : State) : HoldsGenerator (installGen k s) k := by
  have hget (i : Nat) : bufGet (installGen k s).gen i = (genPoly k)[i]? := by simp [bufGet_numbered]
  refine ⟨installGen_gendeg_toNat hk s, fun i _ => hget i, fun i hi => ?_⟩
  rw [hget, List.getElem?_eq_none_iff, length_genPoly]
  exact hi

/-! ## What `GENP`, `RSRAW` and `RSBLKS` answer when a test fails (R138) -/

section
variable {k : BitVec 8} {s : State}

theorem exec_genp_of_bad_degree (hk : ¬ (1 ≤ k.toNat ∧ k.toNat ≤ ecMax)) :
    exec (.genp k) s = .next (failState .precond s) :=
  require_neg _ hk _ _ _

theorem exec_rsraw_of_bad_degree (hk : ¬ (1 ≤ k.toNat ∧ k.toNat ≤ ecMax)) :
    exec (.rsraw k) s = .next (failState .precond s) :=
  require_neg _ hk _ _ _

theorem exec_rsraw_of_empty (hk : 1 ≤ k.toNat ∧ k.toNat ≤ ecMax) (hd : ¬ 1 ≤ s.dclen.toNat) :
    exec (.rsraw k) s = .next (failState .precond s) :=
  (require_pos _ hk _ _ _).trans (require_neg _ hd _ _ _)

theorem exec_rsblks_of_unconfigured (hc : ¬ s.cfgv = true) : exec .rsblks s = .next (failState .noCfg s) :=
  require_neg _ hc _ _ _

theorem exec_rsblks_of_bad_length {p : Symbol} (hc : s.cfgv = true) (hp : symbolOf s.ver s.ecl = some p)
    (hd : s.dclen.toNat ≠ dataCount p) : exec .rsblks s = .next (failState .len s) :=
  (require_pos _ hc _ _ _).trans ((withSymbol_some _ _ _ p hp _).trans (require_neg _ hd _ _ _))

end

/-- Settles O9: past its test, `GENP` leaves `installGen`, which holds the polynomial and nothing above it. -/
theorem genpBuildsGenerator : Obligations.GenpBuildsGenerator := by
  refine ⟨encodedAs_FB (by simp [decodeRows]), fun k s hk => ?_, fun k s hk1 hk30 => ?_⟩
  · have hbad : ¬ (1 ≤ k.toNat ∧ k.toNat ≤ ecMax) := by unfold ecMax; omega
    exact failsWith_of_exec (exec_genp_of_bad_degree hbad)
  · exact ⟨_, completesIn_of_exec (exec_genp_of_tests ⟨hk1, hk30⟩), holdsGenerator_installGen hk30 s, rfl⟩

/-! ## The check bytes of one block (R56, R57) -/

theorem length_divStep (g buf : List Byte) : (divStep g buf).length = buf.length - 1 := by
  cases buf with
  | nil => rfl
  | cons c rest =>
    rw [divStep, List.length_tail]
    split
    · rfl
    · rw [length_xorInto]

theorem length_divSteps (g : List Byte) (n : Nat) (buf : List Byte) : (divSteps g n buf).length = buf.length - n := by
  induction n generalizing buf with
  | zero => rfl
  | succ n ih => rw [divSteps, ih, length_divStep, Nat.sub_sub, Nat.add_comm]

@[simp] theorem length_rsEncode (data : List Byte) (k : Nat) : (rsEncode data k).length = k := by
  simp [rsEncode, length_divSteps]

/-- `EC[0 .. n-1] <- bytes; ECLEN <- n`: the count, the run that is written, and every element outside it. -/
theorem storeEc_spec {bytes : List Byte} {n : Nat} (hlen : bytes.length = n) (hn : n ≤ ecCap) (s : State) :
    (storeEc bytes n s).eclen.toNat = n ∧ (∀ i, i < n → bufGet (storeEc bytes n s).ec i = bytes[i]?) ∧
      SameFrom n s.ec (storeEc bytes n s).ec := by
  refine ⟨storeEc_eclen_toNat hn bytes s, fun i hi => ?_, fun i hi => ?_⟩
  · rw [storeEc_ec, bufGet_bufWrite, if_pos (by omega), Nat.sub_zero]
  · rw [storeEc_ec, bufGet_bufWrite, if_neg (by omega)]

/-- Settles O10: past its tests, `RSRAW` leaves the generator and the `k` check bytes stored in `EC`. -/
theorem rsrawEncodesAllOfDc : Obligations.RsrawEncodesAllOfDc := by
  refine ⟨encodedAs_FB (by simp [decodeRows]), fun k s h => ?_, fun k s hk1 hk30 hd1 hd => ?_⟩
  · by_cases hk : 1 ≤ k.toNat ∧ k.toNat ≤ ecMax
    · have hd : ¬ 1 ≤ s.dclen.toNat := by unfold ecMax at hk; omega
      exact failsWith_of_exec (exec_rsraw_of_empty hk hd)
    · exact failsWith_of_exec (exec_rsraw_of_bad_degree hk)
  · have hcap : s.dclen.toNat - 1 < capacity .dc := by
      show _ < 2956
      omega
    obtain ⟨hcount, hbytes, hsame⟩ := storeEc_spec (length_rsEncode (readRun .dc s.dc 0 s.dclen.toNat) k.toNat)
      (hk30.trans (by decide)) (installGen k.toNat s)
    exact ⟨_, completesIn_of_exec (exec_rsraw_of_tests ⟨hk1, hk30⟩ hd1 hcap), holdsGenerator_installGen hk30 s, hcount,
      hbytes, hsame, rfl⟩

/-! ## The error-correction codewords of every block (R63, R77) -/

/-- Where the pieces of a list all have length `n`, element `m` of piece `j` lies at `j*n + m`. -/
theorem getElem?_flatMap_of_length {α β : Type} {f : α → List β} {n : Nat} (hf : ∀ a, (f a).length = n)
    {l : List α} {j : Nat} (hj : j < l.length) {m : Nat} (hm : m < n) : (l.flatMap f)[j * n + m]? = (f l[j])[m]? := by
  induction l generalizing j with
  | nil => cases hj
  | cons a l ih =>
    rw [List.flatMap_cons]
    cases j with
    | zero => rw [Nat.zero_mul, Nat.zero_add, List.getElem?_append_left (hm.trans_eq (hf a).symm)]; rfl
    | succ j =>
      have hindex : (j + 1) * n + m - n = j * n + m := by rw [Nat.succ_mul]; omega
      rw [List.getElem?_append_right (by rw [hf, Nat.succ_mul]; omega), hf, hindex, ih (Nat.lt_of_succ_lt_succ hj)]
      rfl

theorem length_blocksEc (p : Symbol) (dc : Nat → Byte) : (blocksEc p dc).length = p.b * p.e := by
  simp [blocksEc, List.length_flatMap]

theorem getElem?_blocksEc (p : Symbol) (b : Buffer Byte) {j m : Nat} (hj : j < p.b) (hm : m < p.e) :
    (blocksEc p (readByte .dc b))[j * p.e + m]? = (rsEncode (readRun .dc b (blockOff p j) (blockLen p j)) p.e)[m]? := by
  rw [blocksEc, getElem?_flatMap_of_length (fun _ => length_rsEncode _ _) (by simpa using hj) hm, List.getElem_range]
  rfl

/-- The index of codeword `m` of block `j` lies among the `B*E` codewords. -/
theorem block_index_lt {b e j m : Nat} (hj : j < b) (hm : m < e) : j * e + m < b * e :=
  calc j * e + m < (j + 1) * e := by rw [Nat.succ_mul]; omega
    _ ≤ b * e := Nat.mul_le_mul_right e hj

/-- Settles O11: past its tests, `RSBLKS` leaves the generator and the check bytes of all blocks, `E` to a block. -/
theorem rsblksEncodesEveryBlock : Obligations.RsblksEncodesEveryBlock := by
  refine ⟨encodedAs_F0 (by simp [decodeRows]), fun s hc => ?_, fun s p hc hp hd => ?_, fun s p hc hp hd => ?_⟩
  · exact failsWith_of_exec (exec_rsblks_of_unconfigured (Bool.eq_false_iff.1 hc))
  · exact failsWith_of_exec (exec_rsblks_of_bad_length hc hp hd)
  · obtain ⟨he, hbe⟩ := symbolWith_bounds paramsWellFormed_defaultParams hp
    obtain ⟨hcount, hbytes, hsame⟩ := storeEc_spec (length_blocksEc p (readByte .dc s.dc)) hbe (installGen p.e s)
    exact ⟨_, completesIn_of_exec (exec_rsblks_of_tests hc hp hd), holdsGenerator_installGen he s, hcount,
      fun j m hj hm => (hbytes _ (block_index_lt hj hm)).trans (getElem?_blocksEc p s.dc hj hm), hsame, rfl⟩

end Sys2Proof.Proofs
end

section
/-! SUPPORT. The partition and the interleaver: consecutive blocks tile a run of indices, and reading the blocks column by
column meets each index of the run once, so the interleaving is a reordering of the codewords with a closed index map
(O50, O51, O12). -/

namespace Sys2Proof.Proofs

open Sys2Proof.Machine Sys2Proof.Safety

/-! ## The numbers of the partition (R75, R76) -/

@[simp] theorem blockOff_zero (p : Symbol) : blockOff p 0 = 0 := by simp [blockOff]

theorem blockLen_of_lt {p : Symbol} {j : Nat} (h : j < groupOne p) : blockLen p j = shortLen p := if_pos h

theorem blockLen_of_ge {p : Symbol} {j : Nat} (h : groupOne p ≤ j) : blockLen p j = shortLen p + 1 :=
  if_neg (Nat.not_lt.2 h)

theorem blockOff_succ (p : Symbol) (j : Nat) : blockOff p (j + 1) = blockOff p j + blockLen p j := by
  unfold blockOff
  rw [Nat.succ_mul]
  rcases Nat.lt_or_ge j (groupOne p) with h | h
  · rw [blockLen_of_lt h]; omega
  · rw [blockLen_of_ge h]; omega

theorem shortLen_le_blockLen (p : Symbol) (j : Nat) : shortLen p ≤ blockLen p j := by
  unfold blockLen
  split <;> omega

theorem blockLen_le_maxLen {p : Symbol} {j : Nat} (hj : j < p.b) : blockLen p j ≤ maxLen p := by
  unfold maxLen
  split
  · unfold blockLen; split <;> omega
  · exact (blockLen_of_lt (by unfold groupOne; omega)).le

section
variable {p : Symbol} (hb : 1 ≤ p.b) (he : p.e ≤ p.t / p.b)

include hb in
theorem groupOne_add_groupTwo : groupOne p + groupTwo p = p.b :=
  Nat.sub_add_cancel (Nat.mod_lt _ hb).le

include he in
theorem t_eq_short_rows_add : p.t = shortLen p * p.b + groupTwo p + p.b * p.e := by
  have hdiv : p.b * (p.t / p.b) + p.t % p.b = p.t := Nat.div_add_mod _ _
  have hsplit : p.t / p.b = shortLen p + p.e := (Nat.sub_add_cancel he).symm
  rw [hsplit, Nat.mul_add, Nat.mul_comm p.b] at hdiv
  unfold groupTwo
  omega

include he in
theorem dataCount_eq : dataCount p = shortLen p * p.b + groupTwo p := by
  have := t_eq_short_rows_add he
  unfold dataCount
  omega

include he in
theorem dataCount_add_ecCount : dataCount p + p.b * p.e = p.t := by
  rw [dataCount_eq he, ← t_eq_short_rows_add he]

include hb he in
/-- R76: the blocks end at `D`. -/
theorem blockOff_b : blockOff p p.b = dataCount p := by
  have hgroups := groupOne_add_groupTwo hb
  have hlonger : p.b - groupOne p = groupTwo p := by omega
  rw [blockOff, hlonger, Nat.mul_comm, dataCount_eq he]

end

/-- Settles O50: each block starts where the one before it ends, and where block `B` would start is `D`. -/
theorem blocksTileTheData : Obligations.BlocksTileTheData := by
  intro p hb he
  refine ⟨fun j hj => blockLen_of_lt hj, fun j hj => blockLen_of_ge hj, blockOff_zero p, blockOff_succ p, ?_⟩
  rw [← blockOff_succ, Nat.sub_add_cancel hb]
  exact blockOff_b hb he

/-! ## Reading blocks column by column -/

/-- The indices of blocks `0 .. n-1` in the order of R78's loop, `m` columns: block `j` is the run of `len j` indices from
`off j`, and column `i` holds element `i` of every block that is longer than `i`. -/
def columnMajor (n m : Nat) (len off : Nat → Nat) : List Nat :=
  (List.range m).flatMap fun i => ((List.range n).filter fun j => decide (i < len j)).map fun j => off j + i

section
variable {n m : Nat} {len off : Nat → Nat}

theorem flatMap_range_ite {α : Type} {k m : Nat} (h : k ≤ m) (g : Nat → α) :
    ((List.range m).flatMap fun i => if i < k then [g i] else []) = (List.range k).map g := by
  obtain ⟨d, rfl⟩ := Nat.exists_eq_add_of_le h
  have hbelow : ((List.range k).flatMap fun i => if i < k then [g i] else []) = (List.range k).map g := by
    rw [← List.flatMap_pure_eq_map]
    exact List.flatMap_congr fun i hi => if_pos (List.mem_range.1 hi)
  rw [List.range_add, List.flatMap_append, hbelow]
  simp

/-- One more block: its elements come in order, spread over the columns. -/
theorem columnMajor_succ_perm (h : len n ≤ m) :
    (columnMajor (n + 1) m len off).Perm (columnMajor n m len off ++ (List.range (len n)).map (off n + ·)) := by
  have hcolumn (i : Nat) : (((List.range (n + 1)).filter fun j => decide (i < len j)).map fun j => off j + i) =
      (((List.range n).filter fun j => decide (i < len j)).map fun j => off j + i) ++
        if i < len n then [off n + i] else [] := by
    rw [List.range_succ, List.filter_append, List.map_append, List.filter_singleton]
    by_cases hi : i < len n <;> simp [hi]
  rw [columnMajor, funext hcolumn, ← flatMap_range_ite h]
  exact (List.flatMap_append_perm _ _ _).symm

/-- Where blocks tile the indices from 0, reading them column by column meets each index once. -/
theorem columnMajor_perm_range (hzero : off 0 = 0) (hsucc : ∀ j, off (j + 1) = off j + len j) (hlen : ∀ j < n, len j ≤ m) :
    (columnMajor n m len off).Perm (List.range (off n)) := by
  induction n with
  | zero => simp [columnMajor, hzero]
  | succ n ih =>
    rw [hsucc, List.range_add]
    exact (columnMajor_succ_perm (hlen n (Nat.lt_succ_self n))).trans
      ((ih fun j hj => hlen j (Nat.lt_succ_of_lt hj)).append_right _)

theorem columnMajor_one (h : len 0 ≤ m) (hzero : off 0 = 0) : columnMajor 1 m len off = List.range (len 0) := by
  have hsingle : columnMajor 1 m len off = (List.range m).flatMap fun i => if i < len 0 then [i] else [] := by
    refine List.flatMap_congr fun i _ => ?_
    by_cases hi : i < len 0 <;> simp [hi, hzero]
  exact hsingle.trans ((flatMap_range_ite h id).trans (List.map_id _))

theorem columnMajor_column_succ (n m : Nat) (len off : Nat → Nat) :
    columnMajor n (m + 1) len off =
      columnMajor n m len off ++ ((List.range n).filter fun j => decide (m < len j)).map fun j => off j + m := by
  simp [columnMajor, List.range_succ]

/-- While every block lasts, each column has an element of each. -/
theorem columnMajor_of_full (h : ∀ j < n, m ≤ len j) :
    columnMajor n m len off = (List.range m).flatMap fun i => (List.range n).map fun j => off j + i := by
  refine List.flatMap_congr fun i hi => congrArg (List.map _) (List.filter_eq_self.2 fun j hj => ?_)
  exact decide_eq_true ((List.mem_range.1 hi).trans_le (h j (List.mem_range.1 hj)))

theorem length_columnMajor_of_full (h : ∀ j < n, m ≤ len j) : (columnMajor n m len off).length = m * n := by
  simp [columnMajor_of_full h, List.length_flatMap]

theorem getElem?_columnMajor_of_full (h : ∀ j < n, m ≤ len j) {i j : Nat} (hi : i < m) (hj : j < n) :
    (columnMajor n m len off)[i * n + j]? = some (off j + i) := by
  rw [columnMajor_of_full h, getElem?_flatMap_of_length (by simp) (by simpa using hi) hj]
  simp [hj]

end

/-! ## The index map of the interleaving (R78) -/

/-- R78: the indices of `DC` in the order in which they are emitted. -/
def dataOrder (p : Symbol) : List Nat := columnMajor p.b (maxLen p) (blockLen p) (blockOff p)

/-- R78: the indices of `EC` in the order in which they are emitted. -/
def ecOrder (p : Symbol) : List Nat := columnMajor p.b p.e (fun _ => p.e) (· * p.e)

theorem interleave_eq_map (p : Symbol) (dc ec : Nat → Byte) :
    interleave p dc ec = (dataOrder p).map dc ++ (ecOrder p).map ec := by
  have hfull : ecOrder p = (List.range p.e).flatMap fun i => (List.range p.b).map fun j => j * p.e + i :=
    columnMajor_of_full fun _ _ => Nat.le_refl _
  simp [interleave, dataOrder, columnMajor, hfull, List.map_flatMap, Function.comp_def]

theorem filter_longer_blocks {p : Symbol} (hb : 1 ≤ p.b) :
    ((List.range p.b).filter fun j => decide (shortLen p < blockLen p j)) =
      (List.range (groupTwo p)).map (groupOne p + ·) := by
  have hshort : ((List.range (groupOne p)).filter fun j => decide (shortLen p < blockLen p j)) = [] :=
    List.filter_eq_nil_iff.2 fun j hj => by simp [blockLen_of_lt (List.mem_range.1 hj)]
  rw [← groupOne_add_groupTwo hb, List.range_add, List.filter_append, hshort, List.nil_append, List.filter_eq_self]
  simp [blockLen_of_ge]

/-- The columns that all blocks fill, then the last codeword of each longer block. -/
theorem dataOrder_eq {p : Symbol} (hb : 1 ≤ p.b) :
    dataOrder p = columnMajor p.b (shortLen p) (blockLen p) (blockOff p) ++
      (List.range (groupTwo p)).map fun x => blockOff p (groupOne p + x) + shortLen p := by
  unfold dataOrder maxLen
  split
  · rw [columnMajor_column_succ, filter_longer_blocks hb, List.map_map]
    rfl
  · have hnone : groupTwo p = 0 := by omega
    simp [hnone]

theorem ecOrder_perm (p : Symbol) : (ecOrder p).Perm (List.range (p.b * p.e)) :=
  columnMajor_perm_range (Nat.zero_mul _) (fun j => Nat.succ_mul j p.e) fun _ _ => Nat.le_refl _

theorem getElem?_ecOrder {p : Symbol} {i j : Nat} (hi : i < p.e) (hj : j < p.b) :
    (ecOrder p)[i * p.b + j]? = some (j * p.e + i) :=
  getElem?_columnMajor_of_full (fun _ _ => Nat.le_refl _) hi hj

section
variable {p : Symbol} (hb : 1 ≤ p.b)
include hb

theorem dataOrder_perm (he : p.e ≤ p.t / p.b) : (dataOrder p).Perm (List.range (dataCount p)) := by
  rw [← blockOff_b hb he]
  exact columnMajor_perm_range (blockOff_zero p) (blockOff_succ p) fun _ => blockLen_le_maxLen

theorem length_dataOrder (he : p.e ≤ p.t / p.b) : (dataOrder p).length = dataCount p := by
  rw [(dataOrder_perm hb he).length_eq, List.length_range]

theorem getElem?_dataOrder_short {i j : Nat} (hi : i < shortLen p) (hj : j < p.b) :
    (dataOrder p)[i * p.b + j]? = some (blockOff p j + i) := by
  have hfull : ∀ j < p.b, shortLen p ≤ blockLen p j := fun j _ => shortLen_le_blockLen p j
  rw [dataOrder_eq hb, List.getElem?_append_left, getElem?_columnMajor_of_full hfull hi hj]
  rw [length_columnMajor_of_full hfull]
  exact block_index_lt hi hj

theorem getElem?_dataOrder_last {x : Nat} (hx : x < groupTwo p) :
    (dataOrder p)[shortLen p * p.b + x]? = some (blockOff p (groupOne p + x) + shortLen p) := by
  have hlen : (columnMajor p.b (shortLen p) (blockLen p) (blockOff p)).length = shortLen p * p.b :=
    length_columnMajor_of_full fun j _ => shortLen_le_blockLen p j
  rw [dataOrder_eq hb, List.getElem?_append_right (by omega), hlen, Nat.add_sub_cancel_left]
  simp [hx]

end

section
variable {p : Symbol} {dc ec : Nat → Byte}

theorem getElem?_interleave_of_dataOrder {k x : Nat} (h : (dataOrder p)[k]? = some x) :
    (interleave p dc ec)[k]? = some (dc x) := by
  rw [interleave_eq_map, List.getElem?_append_left, List.getElem?_map, h, Option.map_some]
  rw [List.length_map]
  exact (List.getElem?_eq_some_iff.1 h).1

/-- R80 item 2. -/
theorem interleave_of_one_block (he : p.e ≤ p.t / p.b) (hone : p.b = 1) :
    interleave p dc ec = (List.range (dataCount p)).map dc ++ (List.range p.e).map ec := by
  have hlen : blockLen p 0 = dataCount p := by
    have hend := blockOff_b hone.ge he
    rwa [hone, blockOff_succ, blockOff_zero, Nat.zero_add] at hend
  have hdata : dataOrder p = List.range (dataCount p) := by
    rw [dataOrder, hone, columnMajor_one (blockLen_le_maxLen hone.ge) (blockOff_zero p), hlen]
  have hec : ecOrder p = List.range p.e := by
    rw [ecOrder, hone]
    exact columnMajor_one (Nat.le_refl _) (Nat.zero_mul _)
  rw [interleave_eq_map, hdata, hec]

variable (hb : 1 ≤ p.b) (he : p.e ≤ p.t / p.b)
include hb he

theorem getElem?_interleave_of_ecOrder {k x : Nat} (h : (ecOrder p)[k]? = some x) :
    (interleave p dc ec)[dataCount p + k]? = some (ec x) := by
  rw [interleave_eq_map, List.getElem?_append_right] <;> rw [List.length_map, length_dataOrder hb he]
  · rw [Nat.add_sub_cancel_left, List.getElem?_map, h, Option.map_some]
  · omega

theorem interleave_perm :
    (interleave p dc ec).Perm ((List.range (dataCount p)).map dc ++ (List.range (p.b * p.e)).map ec) := by
  rw [interleave_eq_map]
  exact ((dataOrder_perm hb he).map dc).append ((ecOrder_perm p).map ec)

theorem length_interleave : (interleave p dc ec).length = p.t := by
  rw [(interleave_perm hb he).length_eq, ← dataCount_add_ecCount he]
  simp

theorem take_interleave : (interleave p dc ec).take (dataCount p) = (dataOrder p).map dc := by
  rw [interleave_eq_map]
  exact List.take_left' (by rw [List.length_map, length_dataOrder hb he])

theorem drop_interleave : (interleave p dc ec).drop (dataCount p) = (ecOrder p).map ec := by
  rw [interleave_eq_map]
  exact List.drop_left' (by rw [List.length_map, length_dataOrder hb he])

end

/-- Settles O51: the interleaving emits the data codewords in one fixed order of their indices, then the error-correction
codewords in another, and both orders are permutations. -/
theorem interleavingPermutesCodewords : Obligations.InterleavingPermutesCodewords := by
  intro p dc ec hb he
  refine ⟨length_interleave hb he, interleave_perm hb he, interleave_of_one_block he, fun ec' => ?_, fun dc' => ?_,
    fun x hx => getElem?_interleave_of_dataOrder (getElem?_dataOrder_last hb hx)⟩
  · rw [take_interleave hb he, take_interleave hb he]
  · rw [drop_interleave hb he, drop_interleave hb he]

/-! ## `ILV` (R79) -/

theorem exec_ilv_of_no_ec {s : State} (he : ¬ s.ecv = true) : exec .ilv s = .next (failState .notReady s) :=
  require_neg _ he _ _ _

theorem bufGet_ilvState_cw {p : Symbol} {s : State} {k : Nat} {x : Byte}
    (h : (interleave p (readByte .dc s.dc) (readByte .ec s.ec))[k]? = some x) : bufGet (ilvState p s).cw k = some x := by
  have hk := (List.getElem?_eq_some_iff.1 h).1
  rw [ilvState_cw, bufGet_bufWrite, if_pos (by omega), Nat.sub_zero, h]

theorem sameFrom_ilvState_cw {p : Symbol} (hb : 1 ≤ p.b) (he : p.e ≤ p.t / p.b) (s : State) :
    SameFrom p.t s.cw (ilvState p s).cw := by
  intro i hi
  rw [ilvState_cw, bufGet_bufWrite, if_neg]
  rw [length_interleave hb he]
  omega

/-- Settles O12: past its test, `ILV` leaves `ilvState`, whose `CW` is the interleaving, element by element. -/
theorem ilvInterleavesCodewords : Obligations.IlvInterleavesCodewords := by
  refine ⟨encodedAs_F0 (by simp [decodeRows]), fun s he => ?_, fun s p hecv hp => ?_⟩
  · exact failsWith_of_exec (exec_ilv_of_no_ec (Bool.eq_false_iff.1 he))
  · obtain ⟨-, -, -, -, hb, -, -, -, hshort, -⟩ := symbolOf_sound _ _ p hp
    have he : p.e ≤ p.t / p.b := by omega
    refine ⟨_, completesIn_of_exec (exec_ilv_of_tests hecv hp), fun i j hi hj => ?_, fun j hj1 hj => ?_,
      fun i j hi hj => ?_, sameFrom_ilvState_cw hb he s, rfl⟩
    · exact bufGet_ilvState_cw (getElem?_interleave_of_dataOrder (getElem?_dataOrder_short hb hi hj))
    · obtain ⟨x, rfl⟩ := Nat.exists_eq_add_of_le hj1
      have hx : x < groupTwo p := by have := groupOne_add_groupTwo hb; omega
      rw [Nat.add_sub_cancel_left]
      exact bufGet_ilvState_cw (getElem?_interleave_of_dataOrder (getElem?_dataOrder_last hb hx))
    · rw [Nat.add_assoc]
      exact bufGet_ilvState_cw (getElem?_interleave_of_ecOrder hb he (getElem?_ecOrder hi hj))

end Sys2Proof.Proofs
end

section
/-! SUPPORT. The tables (R71 to R74): what the check of one version says about its rows, and the symbol that they give
(O52). -/

namespace Sys2Proof.Proofs

open Sys2Proof.Machine Sys2Proof.Safety

/-! ## A symbol exists exactly for versions 1 to 40 -/

/-- Under well-formed parameters each version from 1 to 40 has a row of four entries, and a row of the other table. -/
theorem rows_of_version {params : Params} (hw : paramsWellFormed params = true) {v : Nat} (h1 : 1 ≤ v) (h40 : v ≤ vMax) :
    ∃ row align, params.blocks[v - 1]? = some row ∧ params.align[v - 1]? = some align ∧ row.length = 4 := by
  simp only [paramsWellFormed, Bool.and_eq_true, List.all_eq_true, List.mem_range] at hw
  have hv := hw.2 (v - 1) (by omega)
  rw [Nat.sub_add_cancel h1, versionWellFormed] at hv
  split at hv
  · rename_i row align hrow halign
    simp only [Bool.and_eq_true, decide_eq_true_eq] at hv
    exact ⟨row, align, hrow, halign, hv.1.1⟩
  · cases hv

theorem symbolFromRow_isSome {l : Nat} {row : List (Nat × Nat)} (h : l < row.length) (v : Nat) (sepTag : Tag)
    (align : List Nat) : (symbolFromRow v l sepTag row align).isSome = true := by
  simp [symbolFromRow, h]

theorem symbolWith_isSome_iff {params : Params} (hw : paramsWellFormed params = true) (ver : BitVec 6) (ecl : BitVec 2) :
    (symbolWith params ver ecl).isSome = true ↔ 1 ≤ ver.toNat ∧ ver.toNat ≤ 40 := by
  constructor
  · intro h
    obtain ⟨p, hp⟩ := Option.isSome_iff_exists.1 h
    obtain ⟨h1, h40, -⟩ := symbolWith_rows params ver ecl p hw hp
    exact ⟨h1, h40⟩
  · rintro ⟨h1, h40⟩
    obtain ⟨row, align, hrow, halign, hlen⟩ := rows_of_version hw h1 h40
    have hver : ver.toNat ≠ 0 := by omega
    simp only [symbolWith, hver, if_false, hrow, halign]
    exact symbolFromRow_isSome (hlen ▸ ecl.isLt) _ _ _

/-! ## The numbers of a symbol -/

/-- R73 items 1 to 5, of an entry that passes the check. -/
theorem entryWellFormed_iff (t e b : Nat) : entryWellFormed t (e, b) = true ↔
    1 ≤ b ∧ 7 ≤ e ∧ e ≤ ecMax ∧ 9 ≤ t / b - e ∧ t / b - e + (if t % b = 0 then 0 else 1) + e ≤ 153 ∧
      1 ≤ t - b * e ∧ t - b * e ≤ dcCap ∧ b * e ≤ ecCap ∧ t ≤ cwCap := by
  simp only [entryWellFormed, Bool.and_eq_true, decide_eq_true_eq, and_assoc]

theorem maxLen_eq (p : Symbol) : maxLen p = p.t / p.b - p.e + if p.t % p.b = 0 then 0 else 1 := by
  unfold maxLen shortLen groupTwo
  split <;> split <;> omega

/-- R73 item 2 and the columns `T` and `REM` of R74, of every symbol of the default tables, by evaluation. -/
theorem symbolOf_meets_table {ver : BitVec 6} {ecl : BitVec 2} {p : Symbol} (h : symbolOf ver ecl = some p) :
    p.e ∈ [7, 10, 13, 15, 16, 17, 18, 20, 22, 24, 26, 28, 30] ∧ codewordColumns[p.ver - 1]? = some (p.t, p.rem) := by
  have all : ∀ (v : BitVec 6) (l : BitVec 2), ∀ q ∈ symbolOf v l,
      q.e ∈ [7, 10, 13, 15, 16, 17, 18, 20, 22, 24, 26, 28, 30] ∧
        codewordColumns[q.ver - 1]? = some (q.t, q.rem) := by decide +kernel
  exact all ver ecl p h

/-- Settles O52: the default tables by evaluation, any others from what the check of a version asks of its rows. -/
theorem blockTableIsWellFormed : Obligations.BlockTableIsWellFormed := by
  refine ⟨paramsWellFormed_defaultParams, fun _ _ _ => symbolOf_meets_table, fun params ver ecl hw =>
    ⟨symbolWith_isSome_iff hw ver ecl, fun p hp => ?_⟩⟩
  obtain ⟨-, -, -, hentry, hsymbol⟩ := symbolWith_rows params ver ecl p hw hp
  obtain ⟨hb, he7, he30, hshort, hlong, hd1, hd, hbe, ht⟩ := (entryWellFormed_iff p.t p.e p.b).1 hentry
  have hver : p.ver = ver.toNat := congrArg Symbol.ver hsymbol
  have hside : p.n = 4 * ver.toNat + 17 := congrArg Symbol.n hsymbol
  have hrem : p.rem < 8 := (congrArg Symbol.rem hsymbol).trans_lt (Nat.mod_lt _ (by decide))
  have htag : p.sepTag = params.sepTag := congrArg Symbol.sepTag hsymbol
  have hblock (j : Nat) (hj : j < p.b) : blockLen p j + p.e ≤ 153 := by
    have := blockLen_le_maxLen hj
    rw [maxLen_eq] at this
    omega
  have hgroup : 1 ≤ p.b - p.t % p.b := Nat.sub_pos_of_lt (Nat.mod_lt _ hb)
  exact ⟨hver, hside, hrem, htag, hb, he7, he30, hshort, by omega, hblock, hd1, hd, hbe, ht, hgroup⟩

end Sys2Proof.Proofs
end

section
/-! SUPPORT. The layout command (R101) and the version words (R94): what `LAYOUT` leaves (O13), and the 34 words (O57). -/

namespace Sys2Proof.Proofs

open Sys2Proof.Machine Sys2Proof.Safety

/-! ## `LAYOUT` (R101) -/

/-- The symbol of a row takes only its block structure `B`, `E` from the level. -/
theorem symbolFromRow_eq {v l : Nat} {sepTag : Tag} {row : List (Nat × Nat)} {align : List Nat} {p : Symbol}
    (h : symbolFromRow v l sepTag row align = some p) :
    p = { ver := v, n := gridSide v, t := unreservedTotal v align.length / 8, rem := unreservedTotal v align.length % 8
          b := p.b, e := p.e, align := align, sepTag := sepTag } := by
  unfold symbolFromRow at h
  split at h
  · cases h
  · exact Option.some.inj h ▸ rfl

/-- Two levels of one version differ in the block structure only. -/
theorem symbolWith_levels {params : Params} {ver : BitVec 6} {ecl ecl' : BitVec 2} {p p' : Symbol}
    (h : symbolWith params ver ecl = some p) (h' : symbolWith params ver ecl' = some p') :
    p' = { p with b := p'.b, e := p'.e } := by
  unfold symbolWith at h h'
  split at h
  · cases h
  next hver =>
    rw [if_neg hver] at h'
    split at h
    next hblocks halign =>
      rw [hblocks, halign] at h'
      rw [symbolFromRow_eq h, symbolFromRow_eq h']
    · cases h

theorem exec_layout_of_unconfigured {s : State} (hc : ¬ s.cfgv = true) : exec .layout s = .next (failState .noCfg s) :=
  require_neg _ hc _ _ _

/-- Settles O13: past its test, `LAYOUT` leaves `layoutState`, which holds the marks of the closed form; only the block
structure of a symbol depends on the level. -/
theorem layoutWritesEveryCell : Obligations.LayoutWritesEveryCell := by
  refine ⟨encodedAs_F0 (by simp [decodeRows]), fun s hc => ?_, fun ver ecl ecl' p p' hp hp' => ?_,
    fun s p hc hp => ⟨?_, ?_⟩⟩
  · exact failsWith_of_exec (exec_layout_of_unconfigured (Bool.eq_false_iff.1 hc))
  · rw [symbolWith_levels hp hp']
    exact ⟨rfl, rfl, fun _ _ => rfl⟩
  · obtain ⟨hver, -, -, hside, -⟩ := symbolOf_sound _ _ p hp
    rw [hside, hver]
  · refine ⟨_, completesIn_of_exec (exec_layout_of_tests hc hp), fun r c hr hc => ⟨?_, ?_, ?_⟩, ?_, ?_, ?_, rfl⟩
    · exact bufGet_write_marks p (·.dark) s.data r c hr hc
    · exact bufGet_write_marks p (·.tag) s.rsvtag r c hr hc
    · exact bufGet_write_marks p (·.dark) s.rsvdark r c hr hc
    · exact bufGet_write_marks_outside p (·.dark) s.data
    · exact bufGet_write_marks_outside p (·.tag) s.rsvtag
    · exact bufGet_write_marks_outside p (·.dark) s.rsvdark

/-! ## The version words (R94, R96) -/

/-- Settles O57: the 34 remainders, evaluated. -/
theorem versionWordsMatchTable : Obligations.VersionWordsMatchTable := by
  unfold Obligations.VersionWordsMatchTable
  decide

end Sys2Proof.Proofs
end

section
/-! SUPPORT. The cells of each tag (R88 to R102): every stage writes a list of rectangles of the grid, no two stages share a cell
but timing and alignment, and so the cells of a tag are counted by areas (O55). -/

namespace Sys2Proof.Proofs

open Sys2Proof.Machine Sys2Proof.Safety

/-! ## Rectangles of cells -/

/-- A rectangle of cells, by its first row and column and its number of rows and columns. -/
structure Rect where
  top : Nat
  left : Nat
  height : Nat
  width : Nat

def Rect.covers (R : Rect) (r c : Nat) : Bool :=
  decide (R.top ≤ r ∧ r < R.top + R.height ∧ R.left ≤ c ∧ c < R.left + R.width)

def Rect.area (R : Rect) : Nat := R.height * R.width

/-- Two rectangles lie side by side or one above the other. -/
def Rect.Apart (R R' : Rect) : Prop :=
  R.top + R.height ≤ R'.top ∨ R'.top + R'.height ≤ R.top ∨ R.left + R.width ≤ R'.left ∨ R'.left + R'.width ≤ R.left

/-- The rectangle lies in a grid of side `n`. -/
def Rect.Inside (n : Nat) (R : Rect) : Prop := R.top + R.height ≤ n ∧ R.left + R.width ≤ n

/-- The cell `(r, c)` is in a rectangle of the list. -/
def covered (rs : List Rect) (r c : Nat) : Bool := rs.any (·.covers r c)

theorem Rect.covers_iff (R : Rect) (r c : Nat) :
    R.covers r c = true ↔ R.top ≤ r ∧ r < R.top + R.height ∧ R.left ≤ c ∧ c < R.left + R.width :=
  decide_eq_true_iff

theorem Rect.Apart.symm {R R' : Rect} (h : R.Apart R') : R'.Apart R := by
  unfold Rect.Apart at *; omega

theorem Rect.Apart.not_covers {R R' : Rect} (h : R.Apart R') {r c : Nat} (hR : R.covers r c = true) :
    ¬ R'.covers r c = true := by
  rw [Rect.covers_iff] at *
  unfold Rect.Apart at h
  omega

theorem covered_iff {rs : List Rect} {r c : Nat} : covered rs r c = true ↔ ∃ R ∈ rs, R.covers r c = true :=
  List.any_eq_true

@[simp] theorem covered_nil (r c : Nat) : covered [] r c = false := rfl

theorem covered_cons (R : Rect) (rs : List Rect) (r c : Nat) :
    covered (R :: rs) r c = (R.covers r c || covered rs r c) := rfl

theorem not_covered_of_apart {rs rs' : List Rect} (h : ∀ R ∈ rs, ∀ R' ∈ rs', R.Apart R') {r c : Nat}
    (hc : covered rs r c = true) : ¬ covered rs' r c = true := by
  obtain ⟨R, hR, hcov⟩ := covered_iff.1 hc
  intro hc'
  obtain ⟨R', hR', hcov'⟩ := covered_iff.1 hc'
  exact (h R hR R' hR').not_covers hcov hcov'

/-- All cells of a grid of side `n`. -/
def gridCells (n : Nat) : Finset (Nat × Nat) := Finset.range n ×ˢ Finset.range n

theorem mem_gridCells {n : Nat} {x : Nat × Nat} : x ∈ gridCells n ↔ x.1 < n ∧ x.2 < n := by
  simp [gridCells]

/-- The cells of a grid that the rectangles of a list cover. -/
def coveredCells (n : Nat) (rs : List Rect) : Finset (Nat × Nat) :=
  (gridCells n).filter fun x => covered rs x.1 x.2 = true

theorem card_filter_covers {n : Nat} {R : Rect} (h : R.Inside n) :
    ((gridCells n).filter fun x => R.covers x.1 x.2 = true).card = R.area := by
  have heq : ((gridCells n).filter fun x => R.covers x.1 x.2 = true)
      = Finset.Ico R.top (R.top + R.height) ×ˢ Finset.Ico R.left (R.left + R.width) := by
    ext x
    simp only [Finset.mem_filter, mem_gridCells, Rect.covers_iff, Finset.mem_product, Finset.mem_Ico]
    unfold Rect.Inside at h
    omega
  rw [heq, Finset.card_product, Nat.card_Ico, Nat.card_Ico, Nat.add_sub_cancel_left, Nat.add_sub_cancel_left, Rect.area]

/-- Rectangles that do not overlap cover as many cells as their areas add up to. -/
theorem card_coveredCells {n : Nat} {rs : List Rect} (hapart : rs.Pairwise Rect.Apart) (hin : ∀ R ∈ rs, R.Inside n) :
    (coveredCells n rs).card = (rs.map Rect.area).sum := by
  induction rs with
  | nil => simp [coveredCells, covered]
  | cons R rs ih =>
    obtain ⟨hR, hrs⟩ := List.pairwise_cons.1 hapart
    obtain ⟨hRin, hrsin⟩ := List.forall_mem_cons.1 hin
    have hdisj : Disjoint ((gridCells n).filter fun x => R.covers x.1 x.2 = true) (coveredCells n rs) := by
      refine Finset.disjoint_filter.2 fun x _ hx hxs => ?_
      obtain ⟨R', hR', hcov⟩ := covered_iff.1 hxs
      exact (hR R' hR').not_covers hx hcov
    have hunion : coveredCells n (R :: rs) =
        ((gridCells n).filter fun x => R.covers x.1 x.2 = true) ∪ coveredCells n rs := by
      simp only [coveredCells, covered_cons, Bool.or_eq_true, Finset.filter_or]
    rw [hunion, Finset.card_union_of_disjoint hdisj, card_filter_covers hRin, ih hrs hrsin, List.map_cons, List.sum_cons]

/-! ## Counting the marks of a layout -/

theorem cellIndex_div_mod {n c : Nat} (r : Nat) (hc : c < n) : (r * n + c) / n = r ∧ (r * n + c) % n = c :=
  (Nat.div_mod_unique (Nat.zero_lt_of_lt hc)).2 ⟨by rw [Nat.mul_comm, Nat.add_comm], hc⟩

/-- The cells `0 .. N*N-1` are the cells `(r, c)` of the grid (R31). -/
theorem tagCount_eq_card (p : Symbol) (t : Tag) :
    tagCount p t = ((gridCells p.n).filter fun x => (layoutCell p x.1 x.2).tag = t).card := by
  have hcount : tagCount p t =
      ((Finset.range (p.n * p.n)).filter fun i => (layoutCell p (i / p.n) (i % p.n)).tag = t).card := by
    simp [tagCount, layoutMarks, List.filter_map, Finset.card_def, Finset.filter_val, Multiset.range, Function.comp_def]
  rw [hcount]
  refine Finset.card_nbij' (fun i => (i / p.n, i % p.n)) (fun x => x.1 * p.n + x.2) ?_ ?_ ?_ ?_
  · intro i hi
    obtain ⟨hi, htag⟩ := Finset.mem_filter.1 hi
    have hi := Finset.mem_range.1 hi
    have hn : 0 < p.n := Nat.pos_of_mul_pos_right (Nat.zero_lt_of_lt hi)
    exact Finset.mem_filter.2 ⟨mem_gridCells.2 ⟨Nat.div_lt_of_lt_mul hi, Nat.mod_lt _ hn⟩, htag⟩
  · intro x hx
    obtain ⟨hx, htag⟩ := Finset.mem_filter.1 hx
    obtain ⟨hr, hc⟩ := mem_gridCells.1 hx
    obtain ⟨hdiv, hmod⟩ := cellIndex_div_mod x.1 hc
    exact Finset.mem_filter.2 ⟨Finset.mem_range.2 (cell_index_lt hr hc), by rwa [hdiv, hmod]⟩
  · exact fun i _ => Nat.div_add_mod' i p.n
  · intro x hx
    obtain ⟨hdiv, hmod⟩ := cellIndex_div_mod x.1 (mem_gridCells.1 (Finset.mem_filter.1 hx).1).2
    exact Prod.ext hdiv hmod

/-- Every cell has one tag. -/
theorem tagCount_sum (p : Symbol) :
    tagCount p .none + tagCount p .finder + tagCount p .separator + tagCount p .timing + tagCount p .alignment
      + tagCount p .versionInfo + tagCount p .formatInfo + tagCount p .darkModule = p.n * p.n := by
  rw [← layoutMarks_length p]
  unfold tagCount
  induction layoutMarks p with
  | nil => rfl
  | cons m ms ih =>
    obtain ⟨tag, dark⟩ := m
    cases tag <;> simp <;> omega

/-! ## The centre coordinates of the alignment patterns (R91, R92) -/

/-- What R92 says of the coordinates for a grid of side `n`: none; or 6, then coordinates well inside the grid, then
`n - 7`. -/
inductive Centres (n : Nat) : List Nat → Prop where
  | empty : Centres n []
  | ends (mid : List Nat) (hn : 25 ≤ n) (hspaced : mid.Pairwise fun a b => a + 12 ≤ b)
      (hmid : ∀ a ∈ mid, 18 ≤ a ∧ a + 19 ≤ n) : Centres n (6 :: (mid ++ [n - 7]))

theorem pairwise_of_spacedTwelve : ∀ {pos : List Nat}, spacedTwelve pos = true → pos.Pairwise fun a b => a + 12 ≤ b
  | [], _ => .nil
  | [_], _ => List.pairwise_singleton _ _
  | a :: b :: rest, h => by
    simp only [spacedTwelve, Bool.and_eq_true, decide_eq_true_eq] at h
    obtain ⟨hab, hrest⟩ := h
    have ih := pairwise_of_spacedTwelve hrest
    refine List.pairwise_cons.2 ⟨List.forall_mem_cons.2 ⟨hab, fun c hc => ?_⟩, ih⟩
    have := (List.pairwise_cons.1 ih).1 c hc
    omega

theorem centres_of_alignWellFormed {v : Nat} {pos : List Nat} (hv : 1 ≤ v) (h : alignWellFormed v pos = true) :
    Centres (gridSide v) pos := by
  unfold alignWellFormed at h
  split at h
  · rw [List.isEmpty_iff.1 h]
    exact .empty
  · simp only [Bool.and_eq_true, decide_eq_true_eq] at h
    obtain ⟨⟨⟨hhead, hlast⟩, hspaced⟩, -⟩ := h
    have hspaced := pairwise_of_spacedTwelve hspaced
    obtain ⟨rest, rfl⟩ := List.head?_eq_some_iff.1 hhead
    have hn : 25 ≤ gridSide v := by unfold gridSide; omega
    obtain rfl | hne := eq_or_ne rest []
    · simp at hlast; omega
    · rw [List.getLast?_cons_of_ne_nil hne] at hlast
      obtain ⟨mid, rfl⟩ := List.getLast?_eq_some_iff.1 hlast
      obtain ⟨hfirst, hspaced⟩ := List.pairwise_cons.1 hspaced
      obtain ⟨hmid, -, hends⟩ := List.pairwise_append.1 hspaced
      refine .ends mid hn hmid fun a ha => ?_
      have := hfirst a (List.mem_append_left _ ha)
      have := hends a ha _ (List.mem_singleton_self _)
      omega

/-! ## The rectangles of each stage -/

/-- R93: the 5 by 5 patterns around the centres that are not skipped: on row 6 and on column 6 around the coordinates between
the first and the last, and elsewhere around every pair of coordinates after the first. -/
def alignmentRects (pos : List Nat) : List Rect :=
  pos.tail.dropLast.map (fun b => ⟨4, b - 2, 5, 5⟩) ++ pos.tail.dropLast.map (fun a => ⟨a - 2, 4, 5, 5⟩)
    ++ pos.tail.flatMap fun a => pos.tail.map fun b => ⟨a - 2, b - 2, 5, 5⟩

/-- The rectangles of the cells that the stage with a given tag writes, in a symbol whose separators have their own tag. -/
def tagRects (p : Symbol) : Tag → List Rect
  | .none => []
  | .finder => [⟨0, 0, 7, 7⟩, ⟨0, p.n - 7, 7, 7⟩, ⟨p.n - 7, 0, 7, 7⟩]
  | .separator =>
    [⟨7, 0, 1, 8⟩, ⟨7, p.n - 8, 1, 8⟩, ⟨0, 7, 7, 1⟩, ⟨p.n - 8, 7, 8, 1⟩, ⟨p.n - 8, 0, 1, 7⟩, ⟨0, p.n - 8, 7, 1⟩]
  | .timing => [⟨6, 8, 1, p.n - 16⟩, ⟨8, 6, p.n - 16, 1⟩]
  | .alignment => alignmentRects p.align
  | .versionInfo => if 7 ≤ p.ver then [⟨0, p.n - 11, 6, 3⟩, ⟨p.n - 11, 0, 3, 6⟩] else []
  | .formatInfo =>
    [⟨8, 0, 1, 6⟩, ⟨8, 7, 1, 2⟩, ⟨8, p.n - 8, 1, 8⟩, ⟨0, 8, 6, 1⟩, ⟨7, 8, 1, 1⟩, ⟨p.n - 7, 8, 7, 1⟩]
  | .darkModule => [⟨p.n - 8, 8, 1, 1⟩]

/-- What the counts need of a symbol: the side of its grid (R85), its coordinates (R92), and `SEP_TAG` at its default. -/
structure Regular (p : Symbol) : Prop where
  version : 1 ≤ p.ver
  side : p.n = 4 * p.ver + 17
  centres : Centres p.n p.align
  sepTag : p.sepTag = .separator

theorem mem_alignmentRects {pos : List Nat} {R : Rect} : R ∈ alignmentRects pos ↔
    (∃ b ∈ pos.tail.dropLast, R = ⟨4, b - 2, 5, 5⟩) ∨ (∃ a ∈ pos.tail.dropLast, R = ⟨a - 2, 4, 5, 5⟩) ∨
      ∃ a ∈ pos.tail, ∃ b ∈ pos.tail, R = ⟨a - 2, b - 2, 5, 5⟩ := by
  simp only [alignmentRects, List.mem_append, List.mem_map, List.mem_flatMap, eq_comm (b := R), or_assoc]

section
variable {n : Nat} {pos : List Nat} (h : Centres n pos)
include h

theorem Centres.middle_bounds {a : Nat} (ha : a ∈ pos.tail.dropLast) : 25 ≤ n ∧ 18 ≤ a ∧ a + 19 ≤ n := by
  cases h with
  | empty => cases ha
  | ends mid hn _ hmid => exact ⟨hn, hmid a (by simpa using ha)⟩

theorem Centres.tail_bounds {a : Nat} (ha : a ∈ pos.tail) : 25 ≤ n ∧ 18 ≤ a ∧ a + 7 ≤ n := by
  cases h with
  | empty => cases ha
  | ends mid hn _ hmid =>
    rw [List.tail_cons, List.mem_append, List.mem_singleton] at ha
    obtain ha | rfl := ha
    · have := hmid a ha
      omega
    · omega

theorem Centres.tail_spaced : pos.tail.Pairwise fun a b => a + 12 ≤ b := by
  cases h with
  | empty => exact .nil
  | ends mid hn hspaced hmid =>
    refine List.pairwise_append.2 ⟨hspaced, List.pairwise_singleton _ _, fun a ha b hb => ?_⟩
    have := hmid a ha
    rw [List.mem_singleton] at hb
    omega

theorem Centres.middle_spaced : pos.tail.dropLast.Pairwise fun a b => a + 12 ≤ b :=
  h.tail_spaced.sublist (List.dropLast_sublist _)

/-- Where an alignment pattern lies: on row 6, on column 6, or far from both. -/
theorem Centres.alignmentRects_bounds {R : Rect} (hR : R ∈ alignmentRects pos) :
    R.height = 5 ∧ R.width = 5 ∧ 25 ≤ n ∧
    (R.top = 4 ∧ 16 ≤ R.left ∧ R.left + 21 ≤ n ∨ 16 ≤ R.top ∧ R.top + 21 ≤ n ∧ R.left = 4 ∨
      16 ≤ R.top ∧ R.top + 9 ≤ n ∧ 16 ≤ R.left ∧ R.left + 9 ≤ n) := by
  obtain ⟨b, hb, rfl⟩ | ⟨a, ha, rfl⟩ | ⟨a, ha, b, hb, rfl⟩ := mem_alignmentRects.1 hR
  · have := h.middle_bounds hb
    dsimp only
    omega
  · have := h.middle_bounds ha
    dsimp only
    omega
  · have := h.tail_bounds ha
    have := h.tail_bounds hb
    dsimp only
    omega

theorem Centres.alignmentRects_apart : (alignmentRects pos).Pairwise Rect.Apart := by
  unfold alignmentRects
  refine List.pairwise_append.2 ⟨List.pairwise_append.2 ⟨?_, ?_, fun R hR R' hR' => ?_⟩, ?_, fun R hR R' hR' => ?_⟩
  · exact List.pairwise_map.2 (h.middle_spaced.imp fun hab => by unfold Rect.Apart; dsimp only; omega)
  · exact List.pairwise_map.2 (h.middle_spaced.imp fun hab => by unfold Rect.Apart; dsimp only; omega)
  · obtain ⟨b, -, rfl⟩ := List.mem_map.1 hR
    obtain ⟨a, ha, rfl⟩ := List.mem_map.1 hR'
    have := h.middle_bounds ha
    unfold Rect.Apart
    dsimp only
    omega
  · refine List.pairwise_flatMap.2 ⟨fun a _ => ?_, h.tail_spaced.imp fun haa R hR R' hR' => ?_⟩
    · exact List.pairwise_map.2 (h.tail_spaced.imp fun hbb => by unfold Rect.Apart; dsimp only; omega)
    · obtain ⟨b, -, rfl⟩ := List.mem_map.1 hR
      obtain ⟨b', -, rfl⟩ := List.mem_map.1 hR'
      unfold Rect.Apart
      dsimp only
      omega
  · obtain ⟨a, ha, hR'⟩ := List.mem_flatMap.1 hR'
    obtain ⟨b, hb, rfl⟩ := List.mem_map.1 hR'
    have := h.tail_bounds ha
    have := h.tail_bounds hb
    unfold Rect.Apart
    dsimp only
    obtain hR | hR := List.mem_append.1 hR <;> obtain ⟨m, -, rfl⟩ := List.mem_map.1 hR <;> dsimp only <;> omega

end

/-! ## Which stages share cells -/

/-- The tags of the stages whose rectangles depend on the side of the grid alone. -/
def fixedTags : List Tag := [.darkModule, .formatInfo, .versionInfo, .timing, .separator, .finder]

theorem mem_fixedTags {t : Tag} (hnone : t ≠ .none) (halign : t ≠ .alignment) : t ∈ fixedTags := by
  cases t <;> simp_all [fixedTags]

section
variable {p : Symbol} (hp : Regular p)
include hp

theorem Regular.fixed_apart : (fixedTags.flatMap (tagRects p)).Pairwise Rect.Apart := by
  obtain ⟨hver, hside, -, -⟩ := hp
  simp only [fixedTags, List.flatMap_cons, List.flatMap_nil, tagRects]
  split <;>
    simp only [List.cons_append, List.nil_append, List.append_nil, List.pairwise_cons, List.forall_mem_cons, Rect.Apart,
      List.Pairwise.nil, List.not_mem_nil, false_implies, implies_true, and_true]
  all_goals omega

/-- An alignment pattern meets no other stage but timing. -/
theorem Regular.alignment_apart {t : Tag} (htiming : t ≠ .timing) (halign : t ≠ .alignment) {R R' : Rect}
    (hR : R ∈ tagRects p t) (hR' : R' ∈ alignmentRects p.align) : R.Apart R' := by
  have hbounds := hp.centres.alignmentRects_bounds hR'
  have hver := hp.version
  have hside := hp.side
  have happly : ∀ S ∈ tagRects p t, S.Apart R' := by
    cases t with
    | none => simp [tagRects]
    | timing => exact absurd rfl htiming
    | alignment => exact absurd rfl halign
    | versionInfo =>
      simp only [tagRects]
      split
      · simp only [List.forall_mem_cons, List.not_mem_nil, false_implies, implies_true, and_true, Rect.Apart]
        omega
      · exact fun _ hS => absurd hS List.not_mem_nil
    | _ =>
      simp only [tagRects, List.forall_mem_cons, List.not_mem_nil, false_implies, implies_true, and_true, Rect.Apart]
      omega
  exact happly R hR

theorem Regular.tagRects_apart (t : Tag) : (tagRects p t).Pairwise Rect.Apart := by
  by_cases hnone : t = .none
  · exact hnone ▸ .nil
  by_cases halign : t = .alignment
  · exact halign ▸ hp.centres.alignmentRects_apart
  · exact (List.pairwise_flatMap.1 hp.fixed_apart).1 t (mem_fixedTags hnone halign)

/-- No cell is written by two stages, but by timing and alignment. -/
theorem Regular.not_covered {t t' : Tag} (hne : t ≠ t') (h : ¬ (t = .timing ∧ t' = .alignment))
    (h' : ¬ (t = .alignment ∧ t' = .timing)) {r c : Nat} (hc : covered (tagRects p t) r c = true) :
    ¬ covered (tagRects p t') r c = true := by
  refine not_covered_of_apart (fun R hR R' hR' => ?_) hc
  by_cases ha : t = .alignment
  · subst ha
    exact (hp.alignment_apart (fun e => h' ⟨rfl, e⟩) hne.symm hR' hR).symm
  by_cases ha' : t' = .alignment
  · subst ha'
    exact hp.alignment_apart (fun e => h ⟨e, rfl⟩) hne hR hR'
  have hmem {u : Tag} {S : Rect} (hu : u ≠ .alignment) (hS : S ∈ tagRects p u) : u ∈ fixedTags :=
    mem_fixedTags (fun e => by rw [e] at hS; cases hS) hu
  have hall : fixedTags.Pairwise fun u v => ∀ S ∈ tagRects p u, ∀ S' ∈ tagRects p v, S.Apart S' :=
    (List.pairwise_flatMap.1 hp.fixed_apart).2
  have hsymm : Std.Symm fun u v => ∀ S ∈ tagRects p u, ∀ S' ∈ tagRects p v, S.Apart S' :=
    ⟨fun u v huv S hS S' hS' => (huv S' hS' S hS).symm⟩
  exact hall.forall (hmem ha hR) (hmem ha' hR') hne R hR R' hR'

theorem Regular.inside {t : Tag} {R : Rect} (hR : R ∈ tagRects p t) : R.Inside p.n := by
  have hver := hp.version
  have hside := hp.side
  have happly : ∀ S ∈ tagRects p t, S.Inside p.n := by
    cases t with
    | none => simp [tagRects]
    | alignment =>
      intro S hS
      have := hp.centres.alignmentRects_bounds hS
      unfold Rect.Inside
      omega
    | versionInfo =>
      simp only [tagRects]
      split
      · simp only [List.forall_mem_cons, List.not_mem_nil, false_implies, implies_true, and_true, Rect.Inside]
        omega
      · exact fun _ hS => absurd hS List.not_mem_nil
    | _ =>
      simp only [tagRects, List.forall_mem_cons, List.not_mem_nil, false_implies, implies_true, and_true, Rect.Inside]
      omega
  exact happly R hR

end

/-! ## The tag of every cell -/

/-- What the stage with a given tag writes to the cell `(r, c)`. -/
def stageCell (p : Symbol) (r c : Nat) : Tag → Option Mark
  | .none => none
  | .finder => finderCell p.n r c
  | .separator => separatorCell p.sepTag p.n r c
  | .timing => timingCell p.n r c
  | .alignment => alignmentCell p.align r c
  | .versionInfo => versionCell p.ver p.n r c
  | .formatInfo => formatCell p.n r c
  | .darkModule => darkModuleCell p.n r c

/-- The stages of R87, the last one first. -/
def stageOrder : List Tag := [.darkModule, .formatInfo, .versionInfo, .alignment, .timing, .separator, .finder]

theorem mem_stageOrder {t : Tag} (ht : t ≠ .none) : t ∈ stageOrder := by
  cases t <;> simp_all [stageOrder]

theorem layoutCell_eq_findSome? (p : Symbol) (r c : Nat) :
    layoutCell p r c = (stageOrder.findSome? (stageCell p r c)).getD unreservedMark := by
  have hcons (t : Tag) (ts : List Tag) :
      (t :: ts).findSome? (stageCell p r c) = (stageCell p r c t).or (ts.findSome? (stageCell p r c)) := by
    cases h : stageCell p r c t <;> simp [h]
  simp only [stageOrder, hcons, List.findSome?_nil, Option.or_none]
  rfl

theorem tag_of_alignmentCell {pos : List Nat} {r c : Nat} {m : Mark} (h : alignmentCell pos r c = some m) :
    m.tag = .alignment := by
  obtain ⟨a, -, ha⟩ := List.exists_of_findSome?_eq_some h
  obtain ⟨b, -, hb⟩ := List.exists_of_findSome?_eq_some ha
  split at hb
  · cases hb
  · exact (Option.some.inj hb) ▸ rfl

theorem isSome_ite_some {α : Type} {P : Prop} [Decidable P] (a : α) (o : Option α) :
    (if P then some a else o).isSome = true ↔ P ∨ o.isSome = true := by
  split <;> simp [*]

theorem alignmentCell_isSome_iff (pos : List Nat) (r c : Nat) : (alignmentCell pos r c).isSome = true ↔
    ∃ a ∈ pos, ∃ b ∈ pos, coordDist r a ≤ 2 ∧ coordDist c b ≤ 2 ∧ ¬ skippedCentre pos a b = true := by
  simp only [alignmentCell, List.findSome?_isSome_iff, List.mem_filter, decide_eq_true_eq, Option.isSome_ite']
  constructor
  · rintro ⟨a, ⟨ha, hra⟩, b, ⟨hb, hcb⟩, hskip⟩
    exact ⟨a, ha, b, hb, hra, hcb, hskip⟩
  · rintro ⟨a, ha, b, hb, hra, hcb, hskip⟩
    exact ⟨a, ⟨ha, hra⟩, b, ⟨hb, hcb⟩, hskip⟩

/-- R93: the centres on the three finders. -/
theorem skippedCentre_iff (mid : List Nat) (last a b : Nat) : skippedCentre (6 :: (mid ++ [last])) a b = true ↔
    a = 6 ∧ b = 6 ∨ a = 6 ∧ b = last ∨ a = last ∧ b = 6 := by
  rw [← List.cons_append]
  simp only [skippedCentre, List.getLastD_concat, decide_eq_true_eq]
  rfl

theorem coordDist_le_two_iff {x a : Nat} (ha : 2 ≤ a) : coordDist x a ≤ 2 ↔ a - 2 ≤ x ∧ x < a - 2 + 5 := by
  unfold coordDist; omega

/-- The centres that are not skipped, in the three groups of `alignmentRects`. -/
theorem Centres.placed_iff {n : Nat} {pos : List Nat} (h : Centres n pos) (a b : Nat) :
    (a ∈ pos ∧ b ∈ pos ∧ ¬ skippedCentre pos a b = true) ↔
      a = 6 ∧ b ∈ pos.tail.dropLast ∨ a ∈ pos.tail.dropLast ∧ b = 6 ∨ a ∈ pos.tail ∧ b ∈ pos.tail := by
  cases h with
  | empty => simp
  | ends mid hn _ hmid =>
    have ha := hmid a
    have hb := hmid b
    simp only [skippedCentre_iff, List.tail_cons, List.dropLast_concat, List.mem_cons, List.mem_append, List.not_mem_nil,
      or_false]
    grind

theorem Centres.mem_alignmentRects_iff {n : Nat} {pos : List Nat} (h : Centres n pos) (R : Rect) :
    R ∈ alignmentRects pos ↔
      ∃ a b, (a ∈ pos ∧ b ∈ pos ∧ ¬ skippedCentre pos a b = true) ∧ R = ⟨a - 2, b - 2, 5, 5⟩ := by
  simp only [mem_alignmentRects, h.placed_iff]
  constructor
  · rintro (⟨b, hb, rfl⟩ | ⟨a, ha, rfl⟩ | ⟨a, ha, b, hb, rfl⟩)
    · exact ⟨6, b, .inl ⟨rfl, hb⟩, rfl⟩
    · exact ⟨a, 6, .inr (.inl ⟨ha, rfl⟩), rfl⟩
    · exact ⟨a, b, .inr (.inr ⟨ha, hb⟩), rfl⟩
  · rintro ⟨a, b, ⟨rfl, hb⟩ | ⟨ha, rfl⟩ | ⟨ha, hb⟩, rfl⟩
    · exact .inl ⟨b, hb, rfl⟩
    · exact .inr (.inl ⟨a, ha, rfl⟩)
    · exact .inr (.inr ⟨a, ha, b, hb, rfl⟩)

theorem Centres.two_le {n : Nat} {pos : List Nat} (h : Centres n pos) {a : Nat} (ha : a ∈ pos) : 2 ≤ a := by
  cases h with
  | empty => cases ha
  | ends mid hn _ hmid =>
    obtain rfl | ha := List.mem_cons.1 ha
    · decide
    · obtain ha | ha := List.mem_append.1 ha
      · exact le_trans (by decide) (hmid a ha).1
      · rw [List.mem_singleton] at ha
        omega

theorem Centres.alignmentCell_isSome_iff_covered {n : Nat} {pos : List Nat} (h : Centres n pos) (r c : Nat) :
    (alignmentCell pos r c).isSome = true ↔ covered (alignmentRects pos) r c = true := by
  have hnear {a b : Nat} (ha : a ∈ pos) (hb : b ∈ pos) : (⟨a - 2, b - 2, 5, 5⟩ : Rect).covers r c = true ↔
      coordDist r a ≤ 2 ∧ coordDist c b ≤ 2 := by
    rw [coordDist_le_two_iff (h.two_le ha), coordDist_le_two_iff (h.two_le hb), Rect.covers_iff, and_assoc]
  simp only [alignmentCell_isSome_iff, covered_iff, h.mem_alignmentRects_iff]
  constructor
  · rintro ⟨a, ha, b, hb, hra, hcb, hplaced⟩
    exact ⟨_, ⟨a, b, ⟨ha, hb, hplaced⟩, rfl⟩, (hnear ha hb).2 ⟨hra, hcb⟩⟩
  · rintro ⟨_, ⟨a, b, ⟨ha, hb, hplaced⟩, rfl⟩, hcov⟩
    obtain ⟨hra, hcb⟩ := (hnear ha hb).1 hcov
    exact ⟨a, ha, b, hb, hra, hcb, hplaced⟩

section
variable {p : Symbol} (hp : Regular p) {r c : Nat} (hr : r < p.n) (hc : c < p.n)
include hp hr hc

theorem Regular.stageCell_isSome_iff (t : Tag) :
    (stageCell p r c t).isSome = true ↔ covered (tagRects p t) r c = true := by
  have hver := hp.version
  have hside := hp.side
  cases t with
  | none => simp [stageCell, tagRects]
  | alignment => exact hp.centres.alignmentCell_isSome_iff_covered r c
  | versionInfo =>
    by_cases hseven : 7 ≤ p.ver
    · simp only [stageCell, tagRects, versionCell, isSome_ite_some, hseven, if_true, covered_cons, covered_nil,
        Bool.or_eq_true, Rect.covers_iff, Option.isSome_none, Bool.false_eq_true, or_false, true_and]
      omega
    · simp [stageCell, tagRects, versionCell, hseven]
  | _ =>
    simp only [stageCell, tagRects, finderCell, separatorCell, timingCell, formatCell, darkModuleCell, isSome_ite_some,
      covered_cons, covered_nil, Bool.or_eq_true, Rect.covers_iff, Option.isSome_none, Bool.false_eq_true, or_false]
    omega

omit hr hc in
theorem Regular.tag_of_stageCell {t : Tag} {m : Mark} (h : stageCell p r c t = some m) : m.tag = t := by
  cases t with
  | none => cases h
  | alignment => exact tag_of_alignmentCell h
  | _ =>
    simp only [stageCell, finderCell, separatorCell, timingCell, formatCell, darkModuleCell, versionCell, hp.sepTag] at h
    split_ifs at h <;> exact Option.some.inj h ▸ rfl

/-- R87: a cell has the tag of the last stage whose rectangles cover it. -/
theorem Regular.layoutCell_tag :
    (layoutCell p r c).tag = (stageOrder.find? fun t => covered (tagRects p t) r c).getD .none := by
  have hstage : (fun t => (stageCell p r c t).map Mark.tag) = Option.guard fun t => covered (tagRects p t) r c := by
    funext t
    have hsome := hp.stageCell_isSome_iff hr hc t
    cases hm : stageCell p r c t with
    | none => simp_all [Option.guard]
    | some m => simp_all [Option.guard, hp.tag_of_stageCell hm]
  rw [layoutCell_eq_findSome?, ← Option.getD_map Mark.tag, List.map_findSome?, ← List.findSome?_guard, ← hstage]
  rfl

end

/-- Of timing and alignment, the stage that decides a cell of both is alignment. -/
theorem find?_stageOrder_timing {f : Tag → Bool} (h : stageOrder.find? f = some .timing) : ¬ f .alignment = true := by
  intro ha
  simp only [stageOrder, List.find?_cons, ha] at h
  grind

section
variable {p : Symbol} (hp : Regular p) {r c : Nat} (hr : r < p.n) (hc : c < p.n)
include hp hr hc

theorem Regular.find?_of_tag {t : Tag} (ht : t ≠ .none) (h : (layoutCell p r c).tag = t) :
    stageOrder.find? (fun u => covered (tagRects p u) r c) = some t := by
  rw [hp.layoutCell_tag hr hc] at h
  cases hfind : stageOrder.find? fun u => covered (tagRects p u) r c with
  | none => rw [hfind] at h; exact absurd h.symm ht
  | some u => rw [hfind] at h; exact congrArg some h

/-- A cell that a stage covers has that stage's tag, unless it is a timing cell that an alignment pattern covers. -/
theorem Regular.tag_of_covered {t : Tag} (h : covered (tagRects p t) r c = true)
    (htiming : t = .timing → ¬ covered (tagRects p .alignment) r c = true) : (layoutCell p r c).tag = t := by
  have ht : t ≠ .none := fun e => by rw [e] at h; cases h
  rw [hp.layoutCell_tag hr hc]
  cases hfind : stageOrder.find? fun u => covered (tagRects p u) r c with
  | none => exact absurd h (List.find?_eq_none.1 hfind t (mem_stageOrder ht))
  | some u =>
    have hu : covered (tagRects p u) r c = true :=
      List.find?_some (p := fun v => covered (tagRects p v) r c) hfind
    by_contra hne
    refine hp.not_covered (Ne.symm hne) ?_ ?_ h hu
    · rintro ⟨rfl, rfl⟩
      exact htiming rfl hu
    · rintro ⟨rfl, rfl⟩
      exact find?_stageOrder_timing hfind h

theorem Regular.tag_eq_iff {t : Tag} (ht : t ≠ .none) (htiming : t ≠ .timing) :
    (layoutCell p r c).tag = t ↔ covered (tagRects p t) r c = true := by
  refine ⟨fun h => ?_, fun h => hp.tag_of_covered hr hc h fun e => absurd e htiming⟩
  exact List.find?_some (p := fun u => covered (tagRects p u) r c) (hp.find?_of_tag hr hc ht h)

theorem Regular.tag_eq_timing_iff : (layoutCell p r c).tag = .timing ↔
    covered (tagRects p .timing) r c = true ∧ ¬ covered (tagRects p .alignment) r c = true := by
  refine ⟨fun h => ?_, fun ⟨h, hn⟩ => hp.tag_of_covered hr hc h fun _ => hn⟩
  have hfind := hp.find?_of_tag hr hc (by decide) h
  exact ⟨List.find?_some (p := fun u => covered (tagRects p u) r c) hfind, find?_stageOrder_timing hfind⟩

end

/-! ## The counts (R71, R102) -/

/-- The timing cells that alignment patterns take: five on row 6 and five on column 6 for each coordinate between the
ends. -/
def overlapRects (pos : List Nat) : List Rect :=
  pos.tail.dropLast.flatMap fun a => [⟨6, a - 2, 1, 5⟩, ⟨a - 2, 6, 5, 1⟩]

theorem mem_overlapRects {pos : List Nat} {R : Rect} :
    R ∈ overlapRects pos ↔ ∃ a ∈ pos.tail.dropLast, R = ⟨6, a - 2, 1, 5⟩ ∨ R = ⟨a - 2, 6, 5, 1⟩ := by
  simp [overlapRects]

theorem sum_area_alignmentRects (pos : List Nat) : ((alignmentRects pos).map Rect.area).sum =
    25 * (2 * (pos.length - 2) + (pos.length - 1) * (pos.length - 1)) := by
  simp [alignmentRects, List.flatMap, List.map_flatten, Function.comp_def, Rect.area, Nat.sub_sub]
  ring

theorem sum_area_overlapRects (pos : List Nat) : ((overlapRects pos).map Rect.area).sum = 10 * (pos.length - 2) := by
  simp [overlapRects, List.flatMap, List.map_flatten, List.sum_flatten, Function.comp_def, Rect.area, Nat.sub_sub]
  ring

theorem Centres.alignment_area {n : Nat} {pos : List Nat} (h : Centres n pos) :
    ((alignmentRects pos).map Rect.area).sum = 25 * (pos.length * pos.length - 3) := by
  rw [sum_area_alignmentRects]
  cases h with
  | empty => rfl
  | ends mid =>
    have hsquare : (mid.length + 2) * (mid.length + 2) =
        2 * mid.length + (mid.length + 1) * (mid.length + 1) + 3 := by ring
    simp [hsquare]

section
variable {p : Symbol} (hp : Regular p)
include hp

theorem Regular.tagCount_eq_area {t : Tag} (ht : t ≠ .none) (htiming : t ≠ .timing) :
    tagCount p t = ((tagRects p t).map Rect.area).sum := by
  rw [tagCount_eq_card, ← card_coveredCells (hp.tagRects_apart t) fun R => hp.inside]
  refine congrArg Finset.card (Finset.filter_congr fun x hx => ?_)
  obtain ⟨hr, hc⟩ := mem_gridCells.1 hx
  exact hp.tag_eq_iff hr hc ht htiming

theorem Regular.overlapRects_apart : (overlapRects p.align).Pairwise Rect.Apart := by
  refine List.pairwise_flatMap.2 ⟨fun a ha => ?_, hp.centres.middle_spaced.imp_of_mem fun {a b} ha hb hab => ?_⟩
  · have := hp.centres.middle_bounds ha
    simp only [List.forall_mem_cons, List.pairwise_cons, List.Pairwise.nil, List.not_mem_nil, false_implies, implies_true,
      and_true, Rect.Apart]
    omega
  · have := hp.centres.middle_bounds ha
    have := hp.centres.middle_bounds hb
    simp only [List.forall_mem_cons, List.not_mem_nil, false_implies, implies_true, and_true, Rect.Apart]
    omega

theorem Regular.overlapRects_inside : ∀ R ∈ overlapRects p.align, R.Inside p.n := by
  intro R hR
  obtain ⟨a, ha, hRa⟩ := mem_overlapRects.1 hR
  have := hp.centres.middle_bounds ha
  unfold Rect.Inside
  obtain rfl | rfl := hRa <;> dsimp only <;> omega

theorem Regular.covered_overlapRects_iff (r c : Nat) : covered (overlapRects p.align) r c = true ↔
    covered (tagRects p .timing) r c = true ∧ covered (tagRects p .alignment) r c = true := by
  have htiming : covered (tagRects p .timing) r c = true ↔
      r = 6 ∧ 8 ≤ c ∧ c < 8 + (p.n - 16) ∨ c = 6 ∧ 8 ≤ r ∧ r < 8 + (p.n - 16) := by
    simp only [tagRects, covered_cons, covered_nil, Bool.or_eq_true, Rect.covers_iff, Bool.false_eq_true, or_false]
    omega
  rw [htiming, covered_iff, tagRects, covered_iff]
  constructor
  · rintro ⟨R, hR, hcov⟩
    obtain ⟨a, ha, hRa⟩ := mem_overlapRects.1 hR
    have := hp.centres.middle_bounds ha
    obtain rfl | rfl := hRa <;> simp only [Rect.covers_iff] at hcov
    · refine ⟨by omega, ⟨4, a - 2, 5, 5⟩, mem_alignmentRects.2 (.inl ⟨a, ha, rfl⟩), ?_⟩
      simp only [Rect.covers_iff]
      omega
    · refine ⟨by omega, ⟨a - 2, 4, 5, 5⟩, mem_alignmentRects.2 (.inr (.inl ⟨a, ha, rfl⟩)), ?_⟩
      simp only [Rect.covers_iff]
      omega
  · rintro ⟨hline, R, hR, hcov⟩
    obtain ⟨b, hb, rfl⟩ | ⟨a, ha, rfl⟩ | ⟨a, ha, b, hb, rfl⟩ := mem_alignmentRects.1 hR <;>
      simp only [Rect.covers_iff] at hcov
    · have := hp.centres.middle_bounds hb
      refine ⟨⟨6, b - 2, 1, 5⟩, mem_overlapRects.2 ⟨b, hb, .inl rfl⟩, ?_⟩
      simp only [Rect.covers_iff]
      omega
    · have := hp.centres.middle_bounds ha
      refine ⟨⟨a - 2, 6, 5, 1⟩, mem_overlapRects.2 ⟨a, ha, .inr rfl⟩, ?_⟩
      simp only [Rect.covers_iff]
      omega
    · have := hp.centres.tail_bounds ha
      have := hp.centres.tail_bounds hb
      omega

/-- The timing lines have `2*(N-16)` cells, of which the patterns on row 6 and on column 6 take five each. -/
theorem Regular.tagCount_timing : tagCount p .timing + 10 * (p.align.length - 2) = 2 * (p.n - 16) := by
  have hlines : (coveredCells p.n (tagRects p .timing)).card = 2 * (p.n - 16) := by
    rw [card_coveredCells (hp.tagRects_apart .timing) fun R => hp.inside]
    simp only [tagRects, List.map_cons, List.map_nil, List.sum_cons, List.sum_nil, Rect.area]
    omega
  have hoverlap : ((coveredCells p.n (tagRects p .timing)).filter fun x =>
      covered (tagRects p .alignment) x.1 x.2 = true).card = 10 * (p.align.length - 2) := by
    rw [← sum_area_overlapRects, ← card_coveredCells hp.overlapRects_apart hp.overlapRects_inside, coveredCells,
      Finset.filter_filter, coveredCells]
    simp only [hp.covered_overlapRects_iff]
  have hrest : ((coveredCells p.n (tagRects p .timing)).filter fun x =>
      ¬ covered (tagRects p .alignment) x.1 x.2 = true).card = tagCount p .timing := by
    rw [tagCount_eq_card, coveredCells, Finset.filter_filter]
    refine congrArg Finset.card (Finset.filter_congr fun x hx => ?_)
    obtain ⟨hr, hc⟩ := mem_gridCells.1 hx
    exact (hp.tag_eq_timing_iff hr hc).symm
  rw [← hrest, ← hoverlap, ← hlines, Nat.add_comm]
  exact Finset.card_filter_add_card_filter_not _

end

/-- Every symbol of the default tables. -/
theorem regular_of_symbolOf {ver : BitVec 6} {ecl : BitVec 2} {p : Symbol} (h : symbolOf ver ecl = some p) : Regular p := by
  obtain ⟨hver, -, halign, -, hsymbol⟩ := symbolWith_rows defaultParams ver ecl p paramsWellFormed_defaultParams h
  have hv : p.ver = ver.toNat := congrArg Symbol.ver hsymbol
  have hside : p.n = gridSide ver.toNat := congrArg Symbol.n hsymbol
  exact ⟨hv ▸ hver, hv ▸ hside, hside ▸ centres_of_alignWellFormed hver halign, congrArg Symbol.sepTag hsymbol⟩

/-- R71: `T` and `REM` are the quotient and the remainder of `U`. -/
theorem totals_of_symbolOf {ver : BitVec 6} {ecl : BitVec 2} {p : Symbol} (h : symbolOf ver ecl = some p) :
    8 * p.t + p.rem = unreservedTotal p.ver p.align.length ∧ p.rem < 8 := by
  obtain ⟨-, -, -, -, hsymbol⟩ := symbolWith_rows defaultParams ver ecl p paramsWellFormed_defaultParams h
  rw [congrArg Symbol.ver hsymbol, congrArg Symbol.t hsymbol, congrArg Symbol.rem hsymbol]
  exact ⟨Nat.div_add_mod _ 8, Nat.mod_lt _ (by decide)⟩

/-- Settles O55: every tag but timing and `None` is counted by the areas of its stage's rectangles, timing by its lines less
what the patterns take of them, and the unreserved cells are the rest of the grid. -/
theorem cellsOfEachTag : Obligations.CellsOfEachTag := by
  intro ver ecl p h
  have hp := regular_of_symbolOf h
  obtain ⟨htotal, hrem⟩ := totals_of_symbolOf h
  have hver : p.ver = ver.toNat := (symbolOf_sound ver ecl p h).1
  have hfinder : tagCount p .finder = 147 := hp.tagCount_eq_area (by decide) (by decide)
  have hseparator : tagCount p .separator = 45 := hp.tagCount_eq_area (by decide) (by decide)
  have hformat : tagCount p .formatInfo = 30 := hp.tagCount_eq_area (by decide) (by decide)
  have hdark : tagCount p .darkModule = 1 := hp.tagCount_eq_area (by decide) (by decide)
  have hversion : tagCount p .versionInfo = if 7 ≤ p.ver then 36 else 0 := by
    rw [hp.tagCount_eq_area (by decide) (by decide), tagRects]
    split <;> rfl
  have halignment : tagCount p .alignment = 25 * (p.align.length * p.align.length - 3) :=
    (hp.tagCount_eq_area (by decide) (by decide)).trans hp.centres.alignment_area
  have htiming := hp.tagCount_timing
  have hsum := tagCount_sum p
  refine ⟨?_, hrem, hfinder, hseparator, hformat, hdark, hver ▸ hversion, halignment, by omega⟩
  rw [htotal, unreservedTotal, timingCount, alignmentCount, versionInfoCount, gridSide, ← hp.side]
  omega

end Sys2Proof.Proofs
end

section
/-! SUPPORT. The zigzag walk (R106) visits no cell twice, so bit `k` stays on the `k`-th unreserved cell: what `PLACE` leaves
(O14). -/

namespace Sys2Proof.Proofs

open Sys2Proof.Machine Sys2Proof.Safety

/-! ## The walk visits no cell twice (R106) -/

theorem mem_columnPair {n col r c : Nat} {up : Bool} :
    (r, c) ∈ columnPair n col up ↔ r < n ∧ (c = col ∨ c = col - 1) := by
  have hrows (x : Nat) : x ∈ (if up then (List.range n).reverse else List.range n) ↔ x < n := by
    cases up <;> simp
  simp only [columnPair, List.mem_flatMap, hrows, List.mem_cons, List.not_mem_nil, or_false, Prod.mk.injEq]
  constructor
  · rintro ⟨x, hx, ⟨rfl, hc⟩ | ⟨rfl, hc⟩⟩
    · exact ⟨hx, .inl hc⟩
    · exact ⟨hx, .inr hc⟩
  · rintro ⟨hr, hc | hc⟩
    · exact ⟨r, hr, .inl ⟨rfl, hc⟩⟩
    · exact ⟨r, hr, .inr ⟨rfl, hc⟩⟩

/-- The next pair lies wholly to the left of this one. -/
theorem nextColumn_le (col : Nat) : nextColumn col ≤ col - 2 := by
  unfold nextColumn
  split <;> omega

/-- From column `col` on, the walk stays in the grid and does not go to the right. -/
theorem bounds_of_mem_visitFrom {n fuel col r c : Nat} {up : Bool} (h : (r, c) ∈ visitFrom n fuel col up) :
    r < n ∧ c ≤ col ∧ 1 ≤ col := by
  induction fuel generalizing col up with
  | zero => cases h
  | succ fuel ih =>
    rw [visitFrom] at h
    split at h
    · cases h
    · obtain h | h := List.mem_append.1 h
      · obtain ⟨hr, hc⟩ := mem_columnPair.1 h
        omega
      · obtain ⟨hr, hc, -⟩ := ih h
        have := nextColumn_le col
        omega

theorem columnPair_nodup (n : Nat) {col : Nat} (hcol : 1 ≤ col) (up : Bool) : (columnPair n col up).Nodup := by
  have hrows : (if up then (List.range n).reverse else List.range n).Nodup := by
    cases up <;> simp [List.nodup_range]
  have hrow {r : Nat} {x : Nat × Nat} (hx : x ∈ [(r, col), (r, col - 1)]) : x.1 = r := by
    obtain rfl | rfl : x = (r, col) ∨ x = (r, col - 1) := by simpa using hx
    all_goals rfl
  refine List.nodup_flatMap.2 ⟨fun r _ => ?_, hrows.imp fun hne x hx hx' => hne ((hrow hx).symm.trans (hrow hx'))⟩
  have : col ≠ col - 1 := by omega
  simp [this]

theorem visitFrom_nodup (n fuel col : Nat) (up : Bool) : (visitFrom n fuel col up).Nodup := by
  induction fuel generalizing col up with
  | zero => exact List.nodup_nil
  | succ fuel ih =>
    rw [visitFrom]
    split
    · exact List.nodup_nil
    next hcol =>
      refine List.nodup_append'.2 ⟨columnPair_nodup n (by omega) up, ih _ _, fun x hpair hrest => ?_⟩
      obtain ⟨-, hc⟩ := mem_columnPair.1 hpair
      obtain ⟨-, hle, hpos⟩ := bounds_of_mem_visitFrom hrest
      have := nextColumn_le col
      omega

theorem visitOrder_nodup (n : Nat) : (visitOrder n).Nodup := visitFrom_nodup n n (n - 1) true

/-- The walk stays in the grid. -/
theorem bounds_of_mem_visitOrder {n r c : Nat} (h : (r, c) ∈ visitOrder n) : r < n ∧ c < n := by
  obtain ⟨hr, hc, -⟩ := bounds_of_mem_visitFrom h
  omega

/-- Cells of the grid with one index are one cell (R31). -/
theorem cellIndex_injective {n r c r' c' : Nat} (hc : c < n) (hc' : c' < n)
    (h : cellIndex n r c = cellIndex n r' c') : (r, c) = (r', c') := by
  obtain ⟨hdiv, hmod⟩ := cellIndex_div_mod r hc
  obtain ⟨hdiv', hmod'⟩ := cellIndex_div_mod r' hc'
  unfold cellIndex at h
  rw [h] at hdiv hmod
  exact Prod.ext (hdiv.symm.trans hdiv') (hmod.symm.trans hmod')

/-- No cell is placed twice, whatever the tags. -/
theorem placementCells_nodup (n : Nat) (tagAt : Nat → Tag) : (placementCells n tagAt).Nodup := by
  refine List.Nodup.filter _ ((visitOrder_nodup n).map_on fun x hx y hy h => ?_)
  exact cellIndex_injective (bounds_of_mem_visitOrder hx).2 (bounds_of_mem_visitOrder hy).2 h

/-! ## `PLACE` (R108, R110) -/

/-- In a list without repetition, the cell at position `j` keeps the `j`-th of the bits placed. -/
theorem bufGet_placeBits_getElem? (bit : Nat → Bool) {cells : List Nat} (hcells : cells.Nodup) (k : Nat)
    (data : Buffer Bool) {j i : Nat} (h : cells[j]? = some i) :
    bufGet (placeBits bit cells k data) i = some (bit (k + j)) := by
  induction cells generalizing k data j with
  | nil => cases h
  | cons a rest ih =>
    obtain ⟨ha, hrest⟩ := List.nodup_cons.1 hcells
    cases j with
    | zero =>
      obtain rfl : a = i := by simpa using h
      rw [placeBits, bufGet_placeBits_of_notMem _ _ _ _ _ ha, bufGet_bufSet, if_pos rfl, Nat.add_zero]
    | succ j =>
      rw [placeBits, ih hrest (k + 1) _ (by simpa using h), Nat.add_right_comm, Nat.add_assoc]

theorem exec_place_of_not_ready {s : State} (h : s.cwv = false ∨ s.layv = false) :
    exec .place s = .next (failState .notReady s) := by
  by_cases hcw : s.cwv = true
  · have hl : ¬ s.layv = true := Bool.eq_false_iff.1 (h.resolve_left (ne_false_of_eq_true hcw))
    exact (require_pos _ hcw _ _ _).trans (require_neg _ hl _ _ _)
  · exact require_neg _ hcw _ _ _

/-- Settles O14: past its tests, `PLACE` leaves `placeState`; a cell of the walk is written once, so its bit stays. -/
theorem placeWritesStreamBits : Obligations.PlaceWritesStreamBits := by
  refine ⟨encodedAs_F0 (by simp [decodeRows]), fun s h => ?_, fun s p hcw hl hp => ?_⟩
  · exact failsWith_of_exec (exec_place_of_not_ready h)
  · refine ⟨_, completesIn_of_exec (exec_place_of_tests hcw hl hp), fun k i hk => ?_, fun i hi => ?_, rfl⟩
    · have hbit := bufGet_placeBits_getElem? (streamBit p.t (readByte .cw s.cw)) (placementCells_nodup p.n _) 0 s.data hk
      rwa [Nat.zero_add] at hbit
    · exact bufGet_placeBits_of_notMem _ _ 0 s.data i hi

end Sys2Proof.Proofs
end

section
/-! SUPPORT. `RUN` (R111) is the chain of the four stages, each of which finds its tests met by the stages before it (O15). -/

namespace Sys2Proof.Proofs

open Sys2Proof.Machine Sys2Proof.Safety

section
variable {s : State} {p : Symbol}

theorem exec_run_of_unconfigured (hc : ¬ s.cfgv = true) : exec .run s = .next (failState .noCfg s) :=
  require_neg _ hc _ _ _

theorem exec_run_of_bad_length (hc : s.cfgv = true) (hp : symbolOf s.ver s.ecl = some p)
    (hd : s.dclen.toNat ≠ dataCount p) : exec .run s = .next (failState .len s) :=
  (require_pos _ hc _ _ _).trans ((withSymbol_some _ _ _ p hp _).trans (require_neg _ hd _ _ _))

/-! The later stages keep the counters of the first; each stage sets its flag, and the first clears `RAWV`. -/

@[simp] theorem runState_gendeg : (runState p s).gendeg = BitVec.ofNat 5 p.e := by simp [runState]
@[simp] theorem runState_eclen : (runState p s).eclen = BitVec.ofNat 12 (p.b * p.e) := by simp [runState]
@[simp] theorem runState_rawv : (runState p s).rawv = false := by simp [runState]
@[simp] theorem runState_ecv : (runState p s).ecv = true := by simp [runState]
@[simp] theorem runState_cwv : (runState p s).cwv = true := by simp [runState]
@[simp] theorem runState_layv : (runState p s).layv = true := by simp [runState]
@[simp] theorem runState_plv : (runState p s).plv = true := by simp [runState]

/-! Each later stage finds its tests met in the state that the stages before it leave. -/

theorem exec_ilv_after_rsblks (hp : symbolOf s.ver s.ecl = some p) :
    exec .ilv (rsblksState p s) = respond (val24 p.t) (ilvState p (rsblksState p s)) :=
  exec_ilv_of_tests (rsblksState_ecv p s) hp

theorem exec_layout_after_ilv (hc : s.cfgv = true) (hp : symbolOf s.ver s.ecl = some p) :
    exec .layout (ilvState p (rsblksState p s)) =
      respond (val24 (unreservedCount p)) (layoutState p (ilvState p (rsblksState p s))) :=
  exec_layout_of_tests hc hp

theorem exec_place_after_layout (hp : symbolOf s.ver s.ecl = some p) :
    exec .place (layoutState p (ilvState p (rsblksState p s))) =
      respond (val24 (placeTargets p (layoutState p (ilvState p (rsblksState p s)))).length) (runState p s) :=
  exec_place_of_tests (ilvState_cwv p (rsblksState p s)) (layoutState_layv p (ilvState p (rsblksState p s))) hp

end

/-- The answer replaces whatever response stands on the port. -/
theorem respond_eq_set_resp (v : Val) (r : Word) (w : State) :
    respond v w = .next { withResp r w with resp := some (0x00#8 ++ v) } := rfl

/-- A command answers the same whatever response stands on the port. -/
theorem exec_withResp_of_respond {i : Instr} {s w : State} {v : Val} (h : exec i s = respond v w) (r : Word) :
    exec i (withResp r s) = .next (withResp (responseWord .ok v) w) :=
  (exec_withResp i r s).trans h

/-- Settles O15: the four stages run on the states that `runState` composes; no stage reads the response of the one
before. -/
theorem runEqualsFourStages : Obligations.RunEqualsFourStages := by
  refine ⟨encodedAs_F0 (by simp [decodeRows]), fun s hc => ?_, fun s p hc hp hd => ?_, fun s p hc hp hd => ?_⟩
  · exact failsWith_of_exec (exec_run_of_unconfigured (Bool.eq_false_iff.1 hc))
  · exact failsWith_of_exec (exec_run_of_bad_length hc hp hd)
  · obtain ⟨he, hbe⟩ := symbolWith_bounds paramsWellFormed_defaultParams hp
    have he32 : p.e < 32 := he.trans_lt (by decide)
    have hbe4096 : p.b * p.e < 4096 := hbe.trans_lt (by decide)
    refine ⟨_, _, _, _, exec_rsblks_of_tests hc hp hd,
      exec_withResp_of_respond (exec_ilv_after_rsblks hp) _,
      exec_withResp_of_respond (exec_layout_after_ilv hc hp) _,
      exec_withResp_of_respond (exec_place_after_layout hp) _,
      (exec_run_of_tests hc hp hd).trans (respond_eq_set_resp _ _ _), ?_⟩
    simpa using ⟨he32, hbe4096⟩

end Sys2Proof.Proofs
end

section
/-! SUPPORT. How a word fails (R137): it changes nothing but `FERR` (O28); and with which statuses each command answers
(R139, O30). -/

namespace Sys2Proof.Proofs

open Sys2Proof.Machine Sys2Proof.Safety

/-! ## A failure changes nothing but `FERR` (R137) -/

/-- R137: what a word can leave: a value after a success, or the failed state. -/
theorem runWord_ok_or_failState {x : Word} {s t : State} (ht : runWord x s = .next t) :
    (∃ v w, t = withResp (responseWord .ok v) w) ∨ ∃ code, code ≠ .ok ∧ t = failState code s := by
  obtain ⟨-, ht⟩ | ⟨-, ht⟩ | ⟨i, -, ht⟩ := runWord_next x s t ht
  · exact .inr ⟨.badOp, by decide, ht⟩
  · exact .inr ⟨.badArg, by decide, ht⟩
  · obtain hfail | ⟨v, w, -, hok⟩ := exec_next ht
    · exact .inr hfail
    · exact .inl ⟨v, w, hok⟩

/-- Settles O28: a success puts status 0 on the port, and the failed state is `s` but for `FERR` and the response. -/
theorem failureChangesOnlyFerr : Obligations.FailureChangesOnlyFerr := by
  intro x s t ht
  obtain ⟨v, w, rfl⟩ | ⟨code, hcode, rfl⟩ := runWord_ok_or_failState ht
  · exact .inl ⟨v, rfl⟩
  · exact .inr ⟨statusCode code, mt statusCode_eq_zero hcode, rfl⟩

/-! ## The statuses of each command (R139) -/

/-- A result that answers a next state answers it with a status of the row of command `i`. -/
def AnswersFromRow (i : Instr) (r : Result) : Prop := ∀ t, r = .next t → statusOf t ∈ possibleStatuses i

/-- R139: every command can succeed. -/
theorem ok_mem_possibleStatuses (i : Instr) : statusCode .ok ∈ possibleStatuses i := by
  cases i <;> exact List.mem_cons_self

section
variable {i : Instr}

theorem answersFromRow_respond (v : Val) (w : State) : AnswersFromRow i (respond v w) := by
  rintro _ ⟨⟩
  rw [statusOf_withResp]
  exact ok_mem_possibleStatuses i

/-- The status of a failure has to stand in the row, which is read off by evaluation. -/
theorem answersFromRow_failWith {code : Status} (hcode : (possibleStatuses i).contains (statusCode code) = true)
    (s : State) : AnswersFromRow i (failWith code s) := by
  rintro _ ⟨⟩
  rw [statusOf_failState]
  exact List.contains_iff_mem.1 hcode

theorem answersFromRow_require {cond : Prop} [Decidable cond] {code : Status} {s : State} {rest : Result}
    (hcode : (possibleStatuses i).contains (statusCode code) = true) (hrest : AnswersFromRow i rest) :
    AnswersFromRow i (require cond code s rest) := by
  intro t ht
  obtain ⟨-, rfl⟩ | ⟨-, ht⟩ := require_next cond code s t rest ht
  · exact answersFromRow_failWith hcode s _ rfl
  · exact hrest t ht

theorem answersFromRow_withSymbol {params : Params} {ver : BitVec 6} {ecl : BitVec 2} {rest : Symbol → Result}
    (hrest : ∀ p, AnswersFromRow i (rest p)) : AnswersFromRow i (withSymbol params ver ecl rest) := by
  intro t ht
  obtain ⟨p, -, ht⟩ := withSymbol_next params ver ecl t rest ht
  exact hrest p t ht

theorem answersFromRow_withElement {sp : Space} {j : Nat} {rest : Result} (hrest : AnswersFromRow i rest) :
    AnswersFromRow i (withElement sp j rest) := fun t ht => hrest t (withElement_next sp j t rest ht).2

end

theorem execRdpar_answersFromRow (k : BitVec 8) (s : State) : AnswersFromRow (.rdpar k) (execRdpar k s) := by
  refine answersFromRow_require rfl (answersFromRow_require rfl ?_)
  split
  · exact answersFromRow_withSymbol fun _ => answersFromRow_respond _ _
  · exact answersFromRow_respond _ _

theorem execGflog_answersFromRow (a : BitVec 8) (s : State) : AnswersFromRow (.gflog a) (execGflog a s) := by
  unfold execGflog
  split
  · exact answersFromRow_respond _ _
  · exact answersFromRow_failWith rfl s

/-- R139, test by test in the order of each command's rule; the commands whose tests have one shape stand together. -/
theorem exec_answersFromRow (i : Instr) (s : State) : AnswersFromRow i (exec i s) := by
  cases i with
  | nop | clr | rdstat | gfmul => exact answersFromRow_respond _ _
  | gfexp | genp | pushd => exact answersFromRow_require rfl (answersFromRow_respond _ _)
  | cfg | ilv | layout =>
    exact answersFromRow_require rfl (answersFromRow_withSymbol fun _ => answersFromRow_respond _ _)
  | rsblks | run | rdcw | rdmod =>
    exact answersFromRow_require rfl (answersFromRow_withSymbol fun _ =>
      answersFromRow_require rfl (answersFromRow_respond _ _))
  | place =>
    exact answersFromRow_require rfl (answersFromRow_require rfl (answersFromRow_withSymbol fun _ =>
      answersFromRow_respond _ _))
  | rddc => exact answersFromRow_require rfl (answersFromRow_withElement (answersFromRow_respond _ _))
  | rsraw | rdec | rdgen =>
    exact answersFromRow_require rfl (answersFromRow_require rfl (answersFromRow_withElement
      (answersFromRow_respond _ _)))
  | rdpar k => exact execRdpar_answersFromRow k s
  | gflog a => exact execGflog_answersFromRow a s

/-- Settles O30: every command by its tests, a malformed and an illegal word by what the port answers for them (R45). -/
theorem statusesOfEachCommand : Obligations.StatusesOfEachCommand := by
  refine ⟨fun i s t ht => exec_answersFromRow i s t ht, fun x s t hx ht => ?_, fun x s t hx ht => ?_⟩
  · rw [runWord_of_malformed hx] at ht
    cases ht
    exact statusOf_failState .badArg s
  · rw [runWord_of_illegal hx] at ht
    cases ht
    exact statusOf_failState .badOp s

end Sys2Proof.Proofs
end

section
/-! SUPPORT. The hazard of R155: after `PUSHD` the results of the old data are refused, while `RDMOD` still answers the cells that
stand in the grid spaces (O36). -/

namespace Sys2Proof.Proofs

open Sys2Proof.Machine Sys2Proof.Safety

/-! ## The reads of the results, test by test (R122, R123, R125) -/

section
variable {s : State} {p : Symbol}

theorem exec_rdec_of_not_ready (h : ¬ (s.rawv = true ∨ s.ecv = true)) (i : BitVec 16) :
    exec (.rdec i) s = .next (failState .notReady s) :=
  require_neg _ h _ _ _

theorem exec_rdcw_of_not_ready (h : ¬ s.cwv = true) (i : BitVec 16) :
    exec (.rdcw i) s = .next (failState .notReady s) :=
  require_neg _ h _ _ _

theorem exec_rdmod_of_no_layout (h : ¬ s.layv = true) (i : BitVec 16) :
    exec (.rdmod i) s = .next (failState .notReady s) :=
  require_neg _ h _ _ _

theorem exec_rdmod_of_range (hl : s.layv = true) (hp : symbolOf s.ver s.ecl = some p) {i : BitVec 16}
    (hi : ¬ indexOf i < p.n * p.n) : exec (.rdmod i) s = .next (failState .range s) :=
  (require_pos _ hl _ _ _).trans ((withSymbol_some _ _ _ p hp _).trans (require_neg _ hi _ _ _))

theorem exec_rdmod_of_tests (hl : s.layv = true) (hp : symbolOf s.ver s.ecl = some p) {i : BitVec 16}
    (hi : indexOf i < p.n * p.n) :
    exec (.rdmod i) s = respond (cellVal (readTag s.rsvtag (indexOf i)) (readBit .rsvdark s.rsvdark (indexOf i))
      (readBit .data s.data (indexOf i))) s :=
  (require_pos _ hl _ _ _).trans ((withSymbol_some _ _ _ p hp _).trans (require_pos _ hi _ _ _))

end

/-! ## The state that `PUSHD` leaves (R155) -/

/-- R120: a `PUSHD` that answers status 0 leaves `pushState` with its answer on the port. -/
theorem state_after_pushd {b : BitVec 8} {s t : State} (ht : exec (.pushd b) s = .next t) (hok : statusOf t = 0#8) :
    ∃ v, t = withResp (responseWord .ok v) (pushState b s) := by
  obtain ⟨v, w, heff, rfl⟩ := exec_next_ok ht hok
  cases heff with
  | read _ _ hi => cases hi
  | pushd => exact ⟨v, rfl⟩

/-- R155: `RDMOD` tests and reads only `LAYV`, the configuration and the grid spaces, and `PUSHD` keeps all of them. -/
theorem exec_rdmod_pushState (b : BitVec 8) {i : BitVec 16} {s u : State} (hu : exec (.rdmod i) s = .next u) :
    ∃ u', exec (.rdmod i) (pushState b s) = .next u' ∧ u'.resp = u.resp := by
  obtain ⟨hl, rfl⟩ | ⟨hl, hu⟩ := require_next _ _ _ _ _ hu
  · exact ⟨_, exec_rdmod_of_no_layout (s := pushState b s) hl i, rfl⟩
  obtain ⟨p, hp, hu⟩ := withSymbol_next _ _ _ _ _ hu
  obtain ⟨hi, rfl⟩ | ⟨hi, hu⟩ := require_next _ _ _ _ _ hu
  · exact ⟨_, exec_rdmod_of_range (s := pushState b s) hl hp hi, rfl⟩
  · cases hu
    exact ⟨_, exec_rdmod_of_tests (s := pushState b s) hl hp hi, rfl⟩

/-- Settles O36: `pushState` has the flags of `RDEC` and `RDCW` cleared and keeps all that `RDMOD` looks at. -/
theorem pushdLeavesStaleCells : Obligations.PushdLeavesStaleCells := by
  intro b s t ht hok
  obtain ⟨v, rfl⟩ := state_after_pushd ht hok
  refine ⟨by simp, by simp, fun i => ⟨?_, ?_⟩, fun i u hu => ?_⟩
  · exact failsWith_of_exec (exec_rdec_of_not_ready (by simp) i)
  · exact failsWith_of_exec (exec_rdcw_of_not_ready (by simp) i)
  · rw [exec_withResp]
    exact exec_rdmod_pushState b hu

end Sys2Proof.Proofs
end

section
/-! SUPPORT. Encoder and decoder are inverse (R41 to R46): the argument of each format has its operands in its fields and its
reserved bits 0 (O22), and a word with its reserved bits 0 is the word of its fields (O23). -/

namespace Sys2Proof.Proofs

open Sys2Proof.Machine Sys2Proof.Safety

/-! ## The word of a command decodes to it -/

@[simp] theorem fieldI_append (op : Byte) (arg : Val) : fieldI (op ++ arg) = arg.extractLsb' 0 16 :=
  extractLsb'_append_arg op arg (by decide)

@[simp] theorem fieldVer_append (op : Byte) (arg : Val) : fieldVer (op ++ arg) = arg.extractLsb' 0 6 :=
  extractLsb'_append_arg op arg (by decide)

@[simp] theorem fieldEcl_append (op : Byte) (arg : Val) : fieldEcl (op ++ arg) = arg.extractLsb' 8 2 :=
  extractLsb'_append_arg op arg (by decide)

/-- Format FI: one element index. -/
theorem encodedAs_FI {op : Byte} {mk : BitVec 16 → Instr}
    (hrow : ⟨op, reservedFI, fun w => mk (fieldI w)⟩ ∈ decodeRows) :
    EncodedAs op 0xFF0000#24 fun arg => mk (arg.extractLsb' 0 16) :=
  encodedAs_of_row hrow rfl rfl fun arg => congrArg mk (fieldI_append op arg)

/-- Format FC: a version and a level. -/
theorem encodedAs_FC {op : Byte} {mk : BitVec 6 → BitVec 2 → Instr}
    (hrow : ⟨op, reservedFC, fun w => mk (fieldVer w) (fieldEcl w)⟩ ∈ decodeRows) :
    EncodedAs op 0xFFFCC0#24 fun arg => mk (arg.extractLsb' 0 6) (arg.extractLsb' 8 2) :=
  encodedAs_of_row hrow rfl rfl fun arg => congrArg₂ mk (fieldVer_append op arg) (fieldEcl_append op arg)

theorem decode_F0 {op : Byte} {i : Instr} (hrow : ⟨op, reservedF0, fun _ => i⟩ ∈ decodeRows) :
    decode (commandWord op argF0) = .wellFormed i :=
  (encodedAs_F0 hrow argF0).1 rfl

theorem decode_FB {op : Byte} {mk : BitVec 8 → Instr} (hrow : ⟨op, reservedFB, fun w => mk (fieldB w)⟩ ∈ decodeRows)
    (b : BitVec 8) : decode (commandWord op (argFB b)) = .wellFormed (mk b) := by
  have hfield : (argFB b).extractLsb' 0 8 = b := BitVec.extractLsb'_append_eq_right
  simpa only [commandWord, hfield] using (encodedAs_FB hrow _).1 (Laws.argFB_masked b)

theorem decode_FP {op : Byte} {mk : BitVec 8 → BitVec 8 → Instr}
    (hrow : ⟨op, reservedFP, fun w => mk (fieldA w) (fieldB w)⟩ ∈ decodeRows) (a b : BitVec 8) :
    decode (commandWord op (argFP a b)) = .wellFormed (mk a b) := by
  have hfieldB : (argFP a b).extractLsb' 0 8 = b := BitVec.extractLsb'_append_eq_right
  have hfieldA : (argFP a b).extractLsb' 8 8 = a :=
    (BitVec.extractLsb'_append_eq_of_le (Nat.le_refl 8)).trans BitVec.extractLsb'_append_eq_right
  simpa only [commandWord, hfieldA, hfieldB] using (encodedAs_FP hrow _).1 (Laws.argFP_masked a b)

theorem decode_FI {op : Byte} {mk : BitVec 16 → Instr} (hrow : ⟨op, reservedFI, fun w => mk (fieldI w)⟩ ∈ decodeRows)
    (i : BitVec 16) : decode (commandWord op (argFI i)) = .wellFormed (mk i) := by
  have hfield : (argFI i).extractLsb' 0 16 = i := BitVec.extractLsb'_append_eq_right
  simpa only [commandWord, hfield] using (encodedAs_FI hrow _).1 (Laws.argFI_masked i)

theorem decode_FC {op : Byte} {mk : BitVec 6 → BitVec 2 → Instr}
    (hrow : ⟨op, reservedFC, fun w => mk (fieldVer w) (fieldEcl w)⟩ ∈ decodeRows) (ver : BitVec 6) (ecl : BitVec 2) :
    decode (commandWord op (argFC ver ecl)) = .wellFormed (mk ver ecl) := by
  have hver : (argFC ver ecl).extractLsb' 0 6 = ver := BitVec.extractLsb'_append_eq_right
  have hecl : (argFC ver ecl).extractLsb' 8 2 = ecl :=
    (BitVec.extractLsb'_append_eq_of_le (by decide)).trans
      ((BitVec.extractLsb'_append_eq_of_le (Nat.le_refl 2)).trans BitVec.extractLsb'_append_eq_right)
  simpa only [commandWord, hver, hecl] using (encodedAs_FC hrow _).1 (Laws.argFC_masked ver ecl)

/-- Settles O22: the row of each command, by its format. -/
theorem encodingIsUndoneByDecoding : Obligations.EncodingIsUndoneByDecoding := by
  intro i
  cases i with
  | nop | clr | rdstat | rsblks | ilv | layout | place | run => exact decode_F0 (by simp [decodeRows])
  | rdpar | gfexp | gflog | genp | rsraw | pushd => exact decode_FB (by simp [decodeRows]) _
  | gfmul a b => exact decode_FP (by simp [decodeRows]) a b
  | rddc | rdec | rdcw | rdgen | rdmod => exact decode_FI (by simp [decodeRows]) _
  | cfg ver ecl => exact decode_FC (by simp [decodeRows]) ver ecl

/-! ## A well-formed word is the word of its command -/

/-- A value whose upper `m` bits are masked to 0 is its lower bits with 0 above them; those keep the rest of the mask. -/
theorem eq_zero_append_of_and_eq_zero {m n : Nat} {x : BitVec (m + n)} {k : BitVec n}
    (h : x &&& (BitVec.allOnes m ++ k) = 0#(m + n)) :
    x = 0#m ++ x.extractLsb' 0 n ∧ x.extractLsb' 0 n &&& k = 0#n := by
  have hx : x.extractLsb' n m ++ x.extractLsb' 0 n = x := BitVec.extractLsb'_append_extractLsb'
  rw [← hx, BitVec.and_append, BitVec.and_allOnes] at h
  have hhi : x.extractLsb' n m = 0#m := by
    have := congrArg (BitVec.extractLsb' n m) h
    simpa [BitVec.extractLsb'_append_eq_left] using this
  have hlo : x.extractLsb' 0 n &&& k = 0#n := by
    have := congrArg (BitVec.extractLsb' 0 n) h
    simpa [BitVec.extractLsb'_append_eq_right] using this
  exact ⟨by rw [← hhi, hx], hlo⟩

theorem argFB_of_masked {arg : Val} (h : arg &&& 0xFFFF00#24 = 0#24) : argFB (arg.extractLsb' 0 8) = arg :=
  (eq_zero_append_of_and_eq_zero (m := 16) (n := 8) (k := 0#8) h).1.symm

theorem argFI_of_masked {arg : Val} (h : arg &&& 0xFF0000#24 = 0#24) : argFI (arg.extractLsb' 0 16) = arg :=
  (eq_zero_append_of_and_eq_zero (m := 8) (n := 16) (k := 0#16) h).1.symm

theorem argFP_of_masked {arg : Val} (h : arg &&& 0xFF0000#24 = 0#24) :
    argFP (arg.extractLsb' 8 8) (arg.extractLsb' 0 8) = arg := by
  have hpair : arg.extractLsb' 8 8 ++ arg.extractLsb' 0 8 = arg.extractLsb' 0 16 :=
    BitVec.extractLsb'_append_extractLsb'_eq_extractLsb' rfl
  rw [argFP, BitVec.append_assoc, hpair]
  exact argFI_of_masked h

theorem argFC_of_masked {arg : Val} (h : arg &&& 0xFFFCC0#24 = 0#24) :
    argFC (arg.extractLsb' 0 6) (arg.extractLsb' 8 2) = arg := by
  have hhigh : arg.extractLsb' 10 14 = 0#14 := by
    have := congrArg (BitVec.extractLsb' 10 14) h
    rw [BitVec.extractLsb'_and] at this
    exact BitVec.and_allOnes.symm.trans this
  have hlow : arg.extractLsb' 0 8 = 0#2 ++ arg.extractLsb' 0 6 := by
    have := congrArg (BitVec.extractLsb' 0 8) h
    rw [BitVec.extractLsb'_and] at this
    have := (eq_zero_append_of_and_eq_zero (m := 2) (n := 6) (k := 0#6) this).1
    rwa [BitVec.extractLsb'_extractLsb'_of_le (by decide)] at this
  have hsplit : arg.extractLsb' 10 14 ++ arg.extractLsb' 8 2 ++ arg.extractLsb' 0 8 = arg := by
    rw [BitVec.extractLsb'_append_extractLsb'_eq_extractLsb' (start₂ := 10) (start₁ := 8) rfl]
    exact BitVec.extractLsb'_append_extractLsb' (w := 16) (len := 8)
  rw [hhigh, hlow] at hsplit
  rw [argFC, BitVec.append_assoc]
  exact hsplit

theorem row_of_decode {w : Word} {i : Instr} (h : decode w = .wellFormed i) :
    ∃ row ∈ decodeRows, row.op = opOf w ∧ w &&& row.reserved = 0#32 ∧ row.build w = i := by
  unfold decode at h
  split at h
  · cases h
  next row hfind =>
    have hop := List.find?_some (p := fun r : DecodeRow => r.op == opOf w) hfind
    split at h
    next hres =>
      injection h with h
      exact ⟨row, List.mem_of_find?_eq_some hfind, beq_iff_eq.1 hop, hres, h⟩
    · cases h

/-- A row inverts the encoder: a word with its opcode and none of its reserved bits is the word of the command it builds. -/
def RowInverts (row : DecodeRow) : Prop :=
  ∀ w : Word, row.op = opOf w → w &&& row.reserved = 0#32 → encode (row.build w) = w

/-- It is enough that the argument of the command built from a word of the row's opcode is the argument of that word. -/
theorem rowInverts_of_arg {op : Byte} {reserved : Val} {build : Word → Instr} (argFor : Val → Val)
    (henc : ∀ arg, encode (build (op ++ arg)) = commandWord op (argFor arg))
    (harg : ∀ arg, arg &&& reserved = 0#24 → argFor arg = arg) : RowInverts ⟨op, 0#8 ++ reserved, build⟩ := by
  intro w (hop : op = opOf w) hres
  obtain ⟨arg, rfl⟩ : ∃ arg : Val, w = op ++ arg := ⟨argOf w, by rw [hop, opOf_append_argOf]⟩
  have hmask : arg &&& reserved = 0#24 := by
    have := congrArg argOf hres
    rwa [argOf_and, argOf_append, argOf_append] at this
  rw [henc, harg arg hmask, commandWord]

theorem rowInverts_F0 {op : Byte} {i : Instr} (henc : encode i = commandWord op argF0) :
    RowInverts ⟨op, reservedF0, fun _ => i⟩ :=
  rowInverts_of_arg (reserved := 0xFFFFFF#24) (fun _ => argF0) (fun _ => henc) fun _ h => h.symm.trans BitVec.and_allOnes

theorem rowInverts_FB {op : Byte} (mk : BitVec 8 → Instr) (henc : ∀ b, encode (mk b) = commandWord op (argFB b)) :
    RowInverts ⟨op, reservedFB, fun w => mk (fieldB w)⟩ :=
  rowInverts_of_arg (reserved := 0xFFFF00#24) (fun arg => argFB (arg.extractLsb' 0 8))
    (fun arg => by rw [henc, fieldB_append]) fun _ => argFB_of_masked

theorem rowInverts_FP {op : Byte} (mk : BitVec 8 → BitVec 8 → Instr)
    (henc : ∀ a b, encode (mk a b) = commandWord op (argFP a b)) :
    RowInverts ⟨op, reservedFP, fun w => mk (fieldA w) (fieldB w)⟩ :=
  rowInverts_of_arg (reserved := 0xFF0000#24) (fun arg => argFP (arg.extractLsb' 8 8) (arg.extractLsb' 0 8))
    (fun arg => by rw [henc, fieldA_append, fieldB_append]) fun _ => argFP_of_masked

theorem rowInverts_FI {op : Byte} (mk : BitVec 16 → Instr) (henc : ∀ i, encode (mk i) = commandWord op (argFI i)) :
    RowInverts ⟨op, reservedFI, fun w => mk (fieldI w)⟩ :=
  rowInverts_of_arg (reserved := 0xFF0000#24) (fun arg => argFI (arg.extractLsb' 0 16))
    (fun arg => by rw [henc, fieldI_append]) fun _ => argFI_of_masked

theorem rowInverts_FC {op : Byte} (mk : BitVec 6 → BitVec 2 → Instr)
    (henc : ∀ ver ecl, encode (mk ver ecl) = commandWord op (argFC ver ecl)) :
    RowInverts ⟨op, reservedFC, fun w => mk (fieldVer w) (fieldEcl w)⟩ :=
  rowInverts_of_arg (reserved := 0xFFFCC0#24) (fun arg => argFC (arg.extractLsb' 0 6) (arg.extractLsb' 8 2))
    (fun arg => by rw [henc, fieldVer_append, fieldEcl_append]) fun _ => argFC_of_masked

/-- Every row of R44, in the table's order. -/
theorem rowInverts_of_mem {row : DecodeRow} (hrow : row ∈ decodeRows) : RowInverts row := by
  have hall : ∀ row ∈ decodeRows, RowInverts row := by
    simp only [decodeRows, List.forall_mem_cons]
    exact ⟨rowInverts_F0 rfl, rowInverts_F0 rfl, rowInverts_FC .cfg fun _ _ => rfl, rowInverts_F0 rfl,
      rowInverts_FB .rdpar fun _ => rfl, rowInverts_FP .gfmul fun _ _ => rfl, rowInverts_FB .gfexp fun _ => rfl,
      rowInverts_FB .gflog fun _ => rfl, rowInverts_FB .genp fun _ => rfl, rowInverts_FB .rsraw fun _ => rfl,
      rowInverts_F0 rfl, rowInverts_F0 rfl, rowInverts_F0 rfl, rowInverts_F0 rfl, rowInverts_F0 rfl,
      rowInverts_FB .pushd fun _ => rfl, rowInverts_FI .rddc fun _ => rfl, rowInverts_FI .rdec fun _ => rfl,
      rowInverts_FI .rdcw fun _ => rfl, rowInverts_FI .rdgen fun _ => rfl, rowInverts_FI .rdmod fun _ => rfl,
      fun _ h => absurd h List.not_mem_nil⟩
  exact hall row hrow

/-- Settles O23: a well-formed word has the opcode of its row and no reserved bit, and the row inverts the encoder. -/
theorem wellFormedWordsAreEncodings : Obligations.WellFormedWordsAreEncodings := by
  intro w i h
  obtain ⟨row, hrow, hop, hres, rfl⟩ := row_of_decode h
  exact rowInverts_of_mem hrow w hop hres

/-- Settles O25: the ten words, evaluated. -/
theorem specWordsDecodeAsWritten : Obligations.SpecWordsDecodeAsWritten := by
  unfold Obligations.SpecWordsDecodeAsWritten
  decide

end Sys2Proof.Proofs
end

section
/-! SUPPORT. What every step keeps: an induction over the effects of the commands, packaged once, and with it the canonical form
of memory (O40), the windows (O41) and the meanings of the flags (O42). -/

namespace Sys2Proof.Proofs

open Sys2Proof.Machine Sys2Proof.Safety

/-! ## From effects to steps -/

/-- A property that does not look at `FERR` or the ports, and that the effect of every command keeps, is kept by every step. -/
theorem stepWith_keeps {params : Params} {P : State → Prop} (hsame : ∀ s t, P s → SameButFerr s t → P t)
    (heff : ∀ i s w, paramsWellFormed params = true → P s → Effect params i s w → P w) {s t : State} (h : P s)
    (ht : stepWith params s = .next t) : P t := by
  obtain ⟨hw, ⟨-, rfl⟩ | ⟨x, rest, -, ht⟩ | ⟨x, rest, -, -, rfl⟩⟩ := stepWith_next params s t ht
  · exact h
  · have h := hsame s _ h (sameButFerr_inputs rest s)
    have hfail (code : Status) : P (failState code { s with inputs := rest }) :=
      hsame _ _ h (sameButFerr_failState code _)
    obtain ⟨-, rfl⟩ | ⟨-, rfl⟩ | ⟨i, -, ht⟩ := runWordBy_next _ x _ t ht
    · exact hfail .badOp
    · exact hfail .badArg
    · obtain ⟨code, -, rfl⟩ | ⟨v, w, hiw, rfl⟩ := execWith_next ht
      · exact hfail code
      · exact hsame w _ (heff i _ w hw h hiw) (sameButFerr_withResp _ w)
  · exact heff .clr _ _ hw (hsame s _ h (sameButFerr_inputs rest s)) (.clr _)

/-- A property kept by every step under any parameters is kept by `step`. -/
theorem step_keeps_of_stepWith {P : State → Prop}
    (h : ∀ s t, P s → stepWith defaultParams s = .next t → P t) (s t : State) (hs : P s) (ht : step s = .next t) : P t :=
  h s t hs (by rwa [stepWith_defaultParams])

/-! ## What the capacities and the partition need of a symbol (R73) -/

/-- What the stages need of a symbol, all of it from the check of R73. -/
structure Fits (p : Symbol) : Prop where
  blocks : 1 ≤ p.b
  room : p.e ≤ p.t / p.b
  degree : p.e ≤ ecMax
  ecCount : p.b * p.e ≤ ecCap
  total : p.t ≤ cwCap
  grid : p.n * p.n ≤ gridCap

theorem fits_of_symbolWith {params : Params} (hw : paramsWellFormed params = true) {ver : BitVec 6} {ecl : BitVec 2}
    {p : Symbol} (hp : symbolWith params ver ecl = some p) : Fits p := by
  obtain ⟨-, h40, -, hentry, hsymbol⟩ := symbolWith_rows params ver ecl p hw hp
  obtain ⟨hb, -, he, hshort, -, -, -, hbe, ht⟩ := (entryWellFormed_iff p.t p.e p.b).1 hentry
  have hn : p.n = 4 * ver.toNat + 17 := congrArg Symbol.n hsymbol
  have hside : p.n ≤ 177 := by unfold vMax at h40; omega
  exact ⟨hb, by omega, he, hbe, ht, Nat.mul_le_mul hside hside⟩

/-! ## The canonical form of memory (R5, R30) -/

/-- One space in canonical form within its capacity. -/
abbrev SpaceWf {α : Type} (sp : Space) (b : Buffer α) : Prop := bufCanonical b ∧ bufWithin (capacity sp) b

section
variable {α : Type} {sp : Space} {b : Buffer α}

theorem spaceWf_bufSet (h : SpaceWf sp b) {i : Nat} (hi : i < capacity sp) (v : α) : SpaceWf sp (bufSet b i v) :=
  ⟨bufSet_canonical b i v h.1, bufSet_within _ b i v hi h.2⟩

theorem spaceWf_bufWrite (h : SpaceWf sp b) {vs : List α} (hvs : vs.length ≤ capacity sp) :
    SpaceWf sp (bufWrite b 0 vs) :=
  ⟨bufWrite_canonical b 0 vs h.1, bufWrite_within _ b 0 vs (by rwa [Nat.zero_add]) h.2⟩

theorem spaceWf_numbered {vs : List α} (hvs : vs.length ≤ capacity sp) : SpaceWf sp (numbered 0 vs) :=
  ⟨numbered_canonical 0 vs, numbered_within _ 0 vs (by rwa [Nat.zero_add])⟩

theorem spaceWf_placeBits {data : Buffer Bool} (h : SpaceWf sp data) (bit : Nat → Bool) {cells : List Nat}
    (hcells : ∀ i ∈ cells, i < capacity sp) (k : Nat) : SpaceWf sp (placeBits bit cells k data) := by
  induction cells generalizing k data with
  | nil => exact h
  | cons i rest ih =>
    obtain ⟨hi, hrest⟩ := List.forall_mem_cons.1 hcells
    exact ih (spaceWf_bufSet h hi (bit k)) hrest (k + 1)

end

/-- Every cell that `PLACE` writes lies in the grid. -/
theorem lt_of_mem_placementCells {n i : Nat} {tagAt : Nat → Tag} (h : i ∈ placementCells n tagAt) : i < n * n := by
  obtain ⟨hi, -⟩ := List.mem_filter.1 h
  obtain ⟨x, hx, rfl⟩ := List.mem_map.1 hi
  obtain ⟨hr, hc⟩ := bounds_of_mem_visitOrder hx
  exact cell_index_lt hr hc

section
variable {s : State} {p : Symbol}

theorem memoryWf_installGen (h : Memory.wf s) {k : Nat} (hk : k ≤ ecMax) : Memory.wf (installGen k s) := by
  obtain ⟨hdc, hec, hcw, -, hgrid⟩ := h
  have hlen : (genPoly k).length ≤ capacity .gen := by
    rw [length_genPoly]
    exact Nat.succ_le_succ hk
  exact ⟨hdc, hec, hcw, spaceWf_numbered (sp := .gen) hlen, hgrid⟩

theorem memoryWf_storeEc (h : Memory.wf s) {bytes : List Byte} (hlen : bytes.length ≤ ecCap) (n : Nat) :
    Memory.wf (storeEc bytes n s) := by
  obtain ⟨hdc, hec, hcw, hrest⟩ := h
  exact ⟨hdc, spaceWf_bufWrite (sp := .ec) hec hlen, hcw, hrest⟩

theorem memoryWf_rsrawState (h : Memory.wf s) {k : Nat} (hk : k ≤ ecMax) : Memory.wf (rsrawState k s) :=
  memoryWf_storeEc (memoryWf_installGen h hk) (by rw [length_rsEncode]; exact hk.trans (by decide)) k

theorem memoryWf_rsblksState (h : Memory.wf s) (hp : Fits p) : Memory.wf (rsblksState p s) :=
  memoryWf_storeEc (memoryWf_installGen h hp.degree) (by rw [length_blocksEc]; exact hp.ecCount) (p.b * p.e)

theorem memoryWf_ilvState (h : Memory.wf s) (hp : Fits p) : Memory.wf (ilvState p s) := by
  obtain ⟨hdc, hec, hcw, hrest⟩ := h
  exact ⟨hdc, hec, spaceWf_bufWrite (sp := .cw) hcw (by rw [length_interleave hp.blocks hp.room]; exact hp.total), hrest⟩

theorem memoryWf_layoutState (h : Memory.wf s) (hp : Fits p) : Memory.wf (layoutState p s) := by
  obtain ⟨hdc, hec, hcw, hgen, hdata, htag, hdark⟩ := h
  have hmarks {α : Type} (f : Mark → α) : ((layoutMarks p).map f).length ≤ gridCap := by
    rw [List.length_map, layoutMarks_length]
    exact hp.grid
  exact ⟨hdc, hec, hcw, hgen, spaceWf_bufWrite (sp := .data) hdata (hmarks _),
    spaceWf_bufWrite (sp := .rsvtag) htag (hmarks _), spaceWf_bufWrite (sp := .rsvdark) hdark (hmarks _)⟩

theorem memoryWf_placeState (h : Memory.wf s) (hp : Fits p) : Memory.wf (placeState p s) := by
  obtain ⟨hdc, hec, hcw, hgen, hdata, hrest⟩ := h
  have hcells : ∀ i ∈ placeTargets p s, i < capacity .data := fun i hi =>
    (lt_of_mem_placementCells hi).trans_le hp.grid
  exact ⟨hdc, hec, hcw, hgen, spaceWf_placeBits (sp := .data) hdata _ hcells 0, hrest⟩

theorem memoryWf_pushState (h : Memory.wf s) (hd : s.dclen.toNat < dcCap) (b : BitVec 8) :
    Memory.wf (pushState b s) := by
  obtain ⟨hdc, hrest⟩ := h
  exact ⟨spaceWf_bufSet (sp := .dc) hdc hd b, hrest⟩

end

theorem memoryWf_of_effect {params : Params} (hw : paramsWellFormed params = true) {i : Instr} {s w : State}
    (h : Memory.wf s) (heff : Effect params i s w) : Memory.wf w := by
  cases heff with
  | read => exact h
  | clr => exact reset_memory_wf
  | cfg => exact h
  | genp k _ hk => exact memoryWf_installGen h hk.2
  | rsraw k _ hk => exact memoryWf_rsrawState h hk.2
  | rsblks _ p _ hp => exact memoryWf_rsblksState h (fits_of_symbolWith hw hp)
  | ilv _ p _ hp => exact memoryWf_ilvState h (fits_of_symbolWith hw hp)
  | layout _ p _ hp => exact memoryWf_layoutState h (fits_of_symbolWith hw hp)
  | place _ p _ _ hp => exact memoryWf_placeState h (fits_of_symbolWith hw hp)
  | run _ p _ hp =>
    have hfits := fits_of_symbolWith hw hp
    exact memoryWf_placeState (memoryWf_layoutState (memoryWf_ilvState (memoryWf_rsblksState h hfits) hfits) hfits) hfits
  | pushd b _ hd => exact memoryWf_pushState h hd b

theorem memoryWf_of_sameButFerr {s t : State} (h : Memory.wf s) (hst : SameButFerr s t) : Memory.wf t := by
  obtain ⟨-, -, -, -, -, -, -, -, -, -, -, hgen, hdc, hec, hcw, hdata, htag, hdark⟩ := hst
  rwa [Memory.wf, hgen, hdc, hec, hcw, hdata, htag, hdark]

theorem stepWith_keeps_memoryWf {params : Params} {s t : State} (h : Memory.wf s) (ht : stepWith params s = .next t) :
    Memory.wf t :=
  stepWith_keeps (fun _ _ => memoryWf_of_sameButFerr) (fun _ _ _ hw h => memoryWf_of_effect hw h) h ht

/-- Settles O40: every write of an effect stays within the capacity of its space. -/
theorem everyStepKeepsMemoryCanonical : Obligations.EveryStepKeepsMemoryCanonical :=
  ⟨step_keeps_of_stepWith fun _ _ => stepWith_keeps_memoryWf, fun _ _ _ => stepWith_keeps_memoryWf⟩

/-! ## The windows (R13) -/

/-- Every element below `n` holds a value. -/
def DefinedBelow {α : Type} (n : Nat) (b : Buffer α) : Prop := ∀ i, i < n → (bufGet b i).isSome = true

section
variable {α : Type} {n : Nat} {b : Buffer α}

theorem definedBelow_bufSet (h : DefinedBelow n b) (v : α) : DefinedBelow (n + 1) (bufSet b n v) := by
  intro i hi
  rw [bufGet_bufSet]
  split
  · rfl
  · exact h i (by omega)

theorem definedBelow_bufWrite (b : Buffer α) (vs : List α) : DefinedBelow vs.length (bufWrite b 0 vs) := by
  intro i hi
  rw [bufGet_bufWrite, if_pos (by omega), Nat.sub_zero, List.getElem?_eq_getElem hi, Option.isSome_some]

theorem definedBelow_numbered (vs : List α) : DefinedBelow vs.length (numbered 0 vs) := by
  intro i hi
  rw [bufGet_numbered, if_pos (Nat.zero_le i), Nat.sub_zero, List.getElem?_eq_getElem hi, Option.isSome_some]

theorem definedBelow_placeBits {data : Buffer Bool} (h : DefinedBelow n data) (bit : Nat → Bool) (cells : List Nat)
    (k : Nat) : DefinedBelow n (placeBits bit cells k data) := by
  induction cells generalizing k data with
  | nil => exact h
  | cons j rest ih =>
    refine ih (fun i hi => ?_) (k + 1)
    rw [bufGet_bufSet]
    split
    · rfl
    · exact h i hi

end

section
variable {params : Params} {s : State} {p : Symbol}

theorem windows_installGen (h : WindowsDefinedFor params s) {k : Nat} (hk : k ≤ ecMax) :
    WindowsDefinedFor params (installGen k s) where
  dc := h.dc
  ec := h.ec
  gen _ i hi := by
    rw [installGen_gendeg_toNat hk] at hi
    exact definedBelow_numbered (genPoly k) i (by rw [length_genPoly]; omega)
  cw := h.cw
  grid := h.grid

/-- R62, R63: the check bytes are stored and `CWV` is cleared, whatever the other flags of the data become. -/
theorem windows_storeEc (h : WindowsDefinedFor params s) {bytes : List Byte} {n : Nat} (hlen : bytes.length = n)
    (hn : n ≤ ecCap) (rawv ecv plv : Bool) :
    WindowsDefinedFor params { storeEc bytes n s with rawv := rawv, ecv := ecv, cwv := false, plv := plv } where
  dc := h.dc
  ec _ i hi := definedBelow_bufWrite s.ec bytes i (by rwa [hlen, ← storeEc_eclen_toNat hn bytes s])
  gen := h.gen
  cw := nofun
  grid := h.grid

theorem windows_rsrawState (h : WindowsDefinedFor params s) {k : Nat} (hk : k ≤ ecMax) :
    WindowsDefinedFor params (rsrawState k s) :=
  windows_storeEc (windows_installGen h hk) (length_rsEncode _ k) (hk.trans (by decide)) true false false

theorem windows_rsblksState (h : WindowsDefinedFor params s) (hp : Fits p) :
    WindowsDefinedFor params (rsblksState p s) :=
  windows_storeEc (windows_installGen h hp.degree) (length_blocksEc p _) hp.ecCount false true false

theorem windows_ilvState (h : WindowsDefinedFor params s) (hfits : Fits p) (hp : symbolWith params s.ver s.ecl = some p) :
    WindowsDefinedFor params (ilvState p s) where
  dc := h.dc
  ec := h.ec
  gen := h.gen
  cw _ q hq i hi := by
    obtain rfl : p = q := Option.some.inj (hp.symm.trans hq)
    exact definedBelow_bufWrite s.cw _ i (by rwa [length_interleave hfits.blocks hfits.room])
  grid := h.grid

theorem windows_layoutState (h : WindowsDefinedFor params s) (hp : symbolWith params s.ver s.ecl = some p) :
    WindowsDefinedFor params (layoutState p s) where
  dc := h.dc
  ec := h.ec
  gen := h.gen
  cw := h.cw
  grid _ q hq i hi := by
    obtain rfl : p = q := Option.some.inj (hp.symm.trans hq)
    have hmarks {α : Type} (f : Mark → α) : i < ((layoutMarks p).map f).length := by
      rwa [List.length_map, layoutMarks_length]
    exact ⟨definedBelow_bufWrite s.data _ i (hmarks _), definedBelow_bufWrite s.rsvtag _ i (hmarks _),
      definedBelow_bufWrite s.rsvdark _ i (hmarks _)⟩

theorem windows_placeState (h : WindowsDefinedFor params s) (p : Symbol) : WindowsDefinedFor params (placeState p s) where
  dc := h.dc
  ec := h.ec
  gen := h.gen
  cw := h.cw
  grid hl q hq i hi := by
    have hdata : DefinedBelow (q.n * q.n) s.data := fun j hj => (h.grid hl q hq j hj).1
    exact ⟨definedBelow_placeBits hdata _ (placeTargets p s) 0 i hi, (h.grid hl q hq i hi).2⟩

theorem windows_pushState (h : WindowsDefinedFor params s) (hd : s.dclen.toNat < dcCap) (b : BitVec 8) :
    WindowsDefinedFor params (pushState b s) where
  dc := by
    have hcap : s.dclen.toNat < 2956 := hd
    have hcount : (pushState b s).dclen.toNat = s.dclen.toNat + 1 := by
      rw [pushState_dclen]
      bv_omega
    rw [hcount]
    exact definedBelow_bufSet h.dc b
  ec := by simp
  gen := h.gen
  cw := by simp
  grid := h.grid

theorem windows_clearState (params : Params) (s : State) : WindowsDefinedFor params (clearState s) := by
  constructor <;> simp

theorem windows_configure (h : WindowsDefinedFor params s) (ver : BitVec 6) (ecl : BitVec 2) :
    WindowsDefinedFor params (configure ver ecl s) where
  dc := by simp
  ec := by simp
  gen := h.gen
  cw := by simp
  grid := by simp

/-- The effect of every command keeps the windows. -/
theorem windows_of_effect (hw : paramsWellFormed params = true) {i : Instr} {w : State} (h : WindowsDefinedFor params s)
    (heff : Effect params i s w) : WindowsDefinedFor params w := by
  cases heff with
  | read => exact h
  | clr => exact windows_clearState params s
  | cfg ver ecl => exact windows_configure h ver ecl
  | genp k _ hk => exact windows_installGen h hk.2
  | rsraw k _ hk => exact windows_rsrawState h hk.2
  | rsblks _ p _ hp => exact windows_rsblksState h (fits_of_symbolWith hw hp)
  | ilv _ p _ hp => exact windows_ilvState h (fits_of_symbolWith hw hp) hp
  | layout _ p _ hp => exact windows_layoutState h hp
  | place _ p => exact windows_placeState h p
  | run _ p _ hp =>
    have hfits := fits_of_symbolWith hw hp
    exact windows_placeState (windows_layoutState (windows_ilvState (windows_rsblksState h hfits) hfits hp) hp) p
  | pushd b _ hd => exact windows_pushState h hd b

theorem windows_of_sameButFerr {t : State} (h : WindowsDefinedFor params s) (hst : SameButFerr s t) :
    WindowsDefinedFor params t := by
  obtain ⟨hver, hecl, hdclen, heclen, hgendeg, -, hrawv, hecv, hcwv, hlayv, -, hgen, hdc, hec, hcw, hdata, htag,
    hdark⟩ := hst
  constructor <;> simp only [hver, hecl, hdclen, heclen, hgendeg, hrawv, hecv, hcwv, hlayv, hgen, hdc, hec, hcw, hdata,
    htag, hdark]
  · exact h.dc
  · exact h.ec
  · exact h.gen
  · exact h.cw
  · exact h.grid

theorem stepWith_keeps_windows {t : State} (h : WindowsDefinedFor params s) (ht : stepWith params s = .next t) :
    WindowsDefinedFor params t :=
  stepWith_keeps (fun _ _ => windows_of_sameButFerr) (fun _ _ _ hw h => windows_of_effect hw h) h ht

end

/-- Settles O41: an effect that widens a window or sets its flag writes all of the window. -/
theorem everyStepKeepsWindowsDefined : Obligations.EveryStepKeepsWindowsDefined :=
  ⟨fun s t _ h ht => step_keeps_of_stepWith (fun _ _ => stepWith_keeps_windows) s t h ht,
    fun _ _ _ _ h ht => stepWith_keeps_windows h ht⟩

/-! ## The meanings of the flags (R14) -/

/-- A run of bytes written from index 0 reads back. -/
theorem readRun_bufWrite (sp : Space) (b : Buffer Byte) {vs : List Byte} {n : Nat} (hlen : vs.length = n) :
    readRun sp (bufWrite b 0 vs) 0 n = vs := by
  subst hlen
  refine List.ext_getElem (readRun_length sp _ 0 _) fun i hi _ => ?_
  have hi : i < vs.length := by simpa using hi
  simp [readRun, readByte, bufGet_bufWrite, hi]

section
variable {params : Params} {s : State} {p : Symbol}

theorem flags_installGen (h : FlagsTruthfulFor params s) (k : Nat) : FlagsTruthfulFor params (installGen k s) :=
  ⟨h.rawv, h.ecv, h.cwv, h.layv, h.plv⟩

/-- `RAWV` (R62): the check bytes of `DC` read back from `EC`. -/
theorem flags_rsrawState (h : FlagsTruthfulFor params s) {k : Nat} (hk : k ≤ ecMax) :
    FlagsTruthfulFor params (rsrawState k s) where
  rawv _ := by
    have heclen : (rsrawState k s).eclen.toNat = k :=
      storeEc_eclen_toNat (hk.trans (by decide)) (rsEncode (readRun .dc s.dc 0 s.dclen.toNat) k) (installGen k s)
    rw [heclen]
    exact readRun_bufWrite .ec s.ec (length_rsEncode _ k)
  ecv := by simp
  cwv := by simp
  layv := h.layv
  plv := by simp

/-- `ECV` (R63): the error-correction codewords of every block read back from `EC`. -/
theorem flags_rsblksState (h : FlagsTruthfulFor params s) (hp : symbolWith params s.ver s.ecl = some p) :
    FlagsTruthfulFor params (rsblksState p s) where
  rawv := by simp
  ecv _ q hq := by
    obtain rfl : p = q := Option.some.inj (hp.symm.trans hq)
    exact readRun_bufWrite .ec s.ec (length_blocksEc p _)
  cwv := by simp
  layv := h.layv
  plv := by simp

/-- `CWV` (R79): the interleaving reads back from `CW`. -/
theorem flags_ilvState (h : FlagsTruthfulFor params s) (hfits : Fits p) (hp : symbolWith params s.ver s.ecl = some p) :
    FlagsTruthfulFor params (ilvState p s) where
  rawv := h.rawv
  ecv := h.ecv
  cwv _ q hq := by
    obtain rfl : p = q := Option.some.inj (hp.symm.trans hq)
    exact readRun_bufWrite .cw s.cw (length_interleave hfits.blocks hfits.room)
  layv := h.layv
  plv := by simp

/-- `LAYV` (R101): every cell holds the mark of the closed form. -/
theorem flags_layoutState (h : FlagsTruthfulFor params s) (hp : symbolWith params s.ver s.ecl = some p) :
    FlagsTruthfulFor params (layoutState p s) where
  rawv := h.rawv
  ecv := h.ecv
  cwv := h.cwv
  layv _ q hq r c hr hc := by
    obtain rfl : p = q := Option.some.inj (hp.symm.trans hq)
    simp [readTag, readBit, bufGet_write_marks, hr, hc]
  plv := by simp

/-- The cells that `PLACE` writes have the tag `None`. -/
theorem tag_of_mem_placementCells {n i : Nat} {tagAt : Nat → Tag} (h : i ∈ placementCells n tagAt) : tagAt i = .none :=
  of_decide_eq_true (List.mem_filter.1 h).2

/-- `PLV` (R108): bit `k` stays on the `k`-th unreserved cell; a reserved cell keeps its colour. -/
theorem flags_placeState (h : FlagsTruthfulFor params s) (hp : symbolWith params s.ver s.ecl = some p) :
    FlagsTruthfulFor params (placeState p s) where
  rawv := h.rawv
  ecv := h.ecv
  cwv := h.cwv
  layv hl q hq r c hr hc := by
    obtain ⟨htag, hdark, hdata⟩ := h.layv hl q hq r c hr hc
    refine ⟨htag, hdark, fun hreserved => ?_⟩
    have hnot : r * q.n + c ∉ placeTargets p s := fun hmem =>
      hreserved (htag.symm.trans (tag_of_mem_placementCells hmem))
    rw [placeState_data, readBit, bufGet_placeBits_of_notMem _ _ _ _ _ hnot]
    exact hdata hreserved
  plv _ q hq k i hk := by
    obtain rfl : p = q := Option.some.inj (hp.symm.trans hq)
    have hbit : bufGet (placeState p s).data i = some (streamBit p.t (readByte .cw s.cw) (0 + k)) :=
      bufGet_placeBits_getElem? _ (placementCells_nodup p.n _) 0 s.data hk
    rw [readBit, hbit, Nat.zero_add]
    rfl

theorem flags_pushState (h : FlagsTruthfulFor params s) (b : BitVec 8) : FlagsTruthfulFor params (pushState b s) where
  rawv := by simp
  ecv := by simp
  cwv := by simp
  layv := h.layv
  plv := by simp

theorem flags_clearState (params : Params) (s : State) : FlagsTruthfulFor params (clearState s) := by
  constructor <;> simp

theorem flags_configure (params : Params) (ver : BitVec 6) (ecl : BitVec 2) (s : State) :
    FlagsTruthfulFor params (configure ver ecl s) := by
  constructor <;> simp

/-- The effect of every command keeps the meanings of the flags. -/
theorem flags_of_effect (hw : paramsWellFormed params = true) {i : Instr} {w : State} (h : FlagsTruthfulFor params s)
    (heff : Effect params i s w) : FlagsTruthfulFor params w := by
  cases heff with
  | read => exact h
  | clr => exact flags_clearState params s
  | cfg ver ecl => exact flags_configure params ver ecl s
  | genp k => exact flags_installGen h _
  | rsraw k _ hk => exact flags_rsrawState h hk.2
  | rsblks _ p _ hp => exact flags_rsblksState h hp
  | ilv _ p _ hp => exact flags_ilvState h (fits_of_symbolWith hw hp) hp
  | layout _ p _ hp => exact flags_layoutState h hp
  | place _ p _ _ hp => exact flags_placeState h hp
  | run _ p _ hp =>
    have hilv := flags_ilvState (flags_rsblksState h hp) (fits_of_symbolWith hw hp) hp
    exact flags_placeState (flags_layoutState hilv hp) hp
  | pushd b => exact flags_pushState h b

theorem flags_of_sameButFerr {t : State} (h : FlagsTruthfulFor params s) (hst : SameButFerr s t) :
    FlagsTruthfulFor params t := by
  obtain ⟨hver, hecl, hdclen, heclen, -, -, hrawv, hecv, hcwv, hlayv, hplv, -, hdc, hec, hcw, hdata, htag, hdark⟩ := hst
  constructor <;> simp only [hver, hecl, hdclen, heclen, hrawv, hecv, hcwv, hlayv, hplv, hdc, hec, hcw, hdata, htag, hdark]
  · exact h.rawv
  · exact h.ecv
  · exact h.cwv
  · exact h.layv
  · exact h.plv

theorem stepWith_keeps_flags {t : State} (h : FlagsTruthfulFor params s) (ht : stepWith params s = .next t) :
    FlagsTruthfulFor params t :=
  stepWith_keeps (fun _ _ => flags_of_sameButFerr) (fun _ _ _ hw h => flags_of_effect hw h) h ht

end

/-- Settles O42: an effect that sets a flag leaves what the flag says, and one that changes what it says clears it. -/
theorem everyStepKeepsFlagsTruthful : Obligations.EveryStepKeepsFlagsTruthful :=
  ⟨fun s t _ h ht => step_keeps_of_stepWith (fun _ _ => stepWith_keeps_flags) s t h ht,
    fun _ _ _ _ h ht => stepWith_keeps_flags h ht⟩

end Sys2Proof.Proofs
end

section
/-! SUPPORT. The whole machine: a step runs the decoded command (O26), the reset values (O27, O39), that every word is answered
(O29), and which commands write the configuration (O34) and each space (O35). -/

namespace Sys2Proof.Proofs

open Sys2Proof.Machine Sys2Proof.Safety

/-! ## The step and the decoded command (R40) -/

/-- A step that finds a word on the port runs it. -/
theorem stepPortBy_command (run : Instr → State → Result) {s : State} {x : Word} {rest : List HostInput}
    (hs : s.inputs = .command x :: rest) : stepPortBy run s = runWordBy run x { s with inputs := rest } := by
  rw [stepPortBy, hs]
  rfl

theorem runWordBy_of_wellFormed (run : Instr → State → Result) {x : Word} {i : Instr} (hx : decode x = .wellFormed i)
    (s : State) : runWordBy run x s = run i s := by
  rw [runWordBy, hx]

theorem stepWith_of_wellFormed {params : Params} (hw : paramsWellFormed params = true) (s : State) :
    stepWith params s = stepPortBy (execWith params) s := if_pos hw

theorem stepWith_of_illFormed {params : Params} (hw : paramsWellFormed params = false) (s : State) :
    stepWith params s = .refused .illFormedParameters := if_neg (Bool.eq_false_iff.1 hw)

/-- Settles O26: taking the word from the port, decoding it and running the command, under either set of parameters. -/
theorem stepRunsDecodedCommand : Obligations.StepRunsDecodedCommand := by
  refine ⟨fun s x rest i hs hx => ?_, fun i s => congrFun₂ execWith_defaultParams i s, congrFun stepWith_defaultParams,
    fun params s x rest i hw hs hx => ?_, fun params s hw => stepWith_of_illFormed hw s⟩
  · exact (stepPortBy_command exec hs).trans (runWordBy_of_wellFormed exec hx _)
  · rw [stepWith_of_wellFormed hw, stepPortBy_command _ hs, runWordBy_of_wellFormed _ hx]

/-! ## Reset (R26, R150) -/

theorem exec_rddc_of_range {s : State} {i : BitVec 16} (hi : ¬ i.toNat < s.dclen.toNat) :
    exec (.rddc i) s = .next (failState .range s) :=
  require_neg _ hi _ _ _

theorem exec_rdgen_of_not_ready {s : State} (h : ¬ 1 ≤ s.gendeg.toNat) (i : BitVec 16) :
    exec (.rdgen i) s = .next (failState .notReady s) :=
  require_neg _ h _ _ _

theorem resetValues_clearState (s : State) : ResetValues (clearState s) := by
  refine ⟨rfl, rfl, rfl, rfl, rfl, rfl, rfl, rfl, rfl, rfl, rfl, rfl, fun i => ⟨?_, ?_, ?_, ?_, ?_⟩⟩
  · exact failsWith_of_exec (exec_rddc_of_range (by simp))
  · exact failsWith_of_exec (exec_rdec_of_not_ready (by simp) i)
  · exact failsWith_of_exec (exec_rdcw_of_not_ready (by simp) i)
  · exact failsWith_of_exec (exec_rdgen_of_not_ready (by simp) i)
  · exact failsWith_of_exec (exec_rdmod_of_no_layout (by simp) i)

/-- No command looks at the response that stands on the port. -/
theorem failsWith_withResp {i : Instr} {s : State} {code : Byte} (h : FailsWith i s code) (r : Word) :
    FailsWith i (withResp r s) code := (exec_withResp i r s).trans h

theorem resetValues_withResp {s : State} (h : ResetValues s) (r : Word) : ResetValues (withResp r s) := by
  obtain ⟨hver, hecl, hdclen, heclen, hgendeg, hcfgv, hrawv, hecv, hcwv, hlayv, hplv, hferr, hreads⟩ := h
  refine ⟨hver, hecl, hdclen, heclen, hgendeg, hcfgv, hrawv, hecv, hcwv, hlayv, hplv, hferr, fun i => ?_⟩
  obtain ⟨hrddc, hrdec, hrdcw, hrdgen, hrdmod⟩ := hreads i
  exact ⟨failsWith_withResp hrddc r, failsWith_withResp hrdec r, failsWith_withResp hrdcw r, failsWith_withResp hrdgen r,
    failsWith_withResp hrdmod r⟩

/-- A hardware reset, between commands or during one, is one step to the reset state. -/
theorem step_of_reset {s : State} {x : HostInput} {rest : List HostInput} (hs : s.inputs = x :: rest)
    (hx : x = .reset ∨ ∃ w, x = .resetDuring w) : step s = .next (clearState { s with inputs := rest }) := by
  rw [step, stepPort, stepPortBy, hs]
  obtain rfl | ⟨w, rfl⟩ := hx <;> rfl

theorem step_of_idle {s : State} (hs : s.inputs = []) : step s = .next s := by
  rw [step, stepPort, stepPortBy, hs]

theorem exists_reset_step {s : State} {x : HostInput} {rest : List HostInput} (hs : s.inputs = x :: rest)
    (hx : x = .reset ∨ ∃ w, x = .resetDuring w) :
    ∃ t, step s = .next t ∧ ResetValues t ∧ t.resp = none ∧ t.inputs = rest :=
  ⟨_, step_of_reset hs hx, resetValues_clearState _, rfl, rfl⟩

/-- Settles O27: every reset leaves `clearState`, a successful `CFG` leaves `configure`. -/
theorem resetsGiveResetState : Obligations.ResetsGiveResetState := by
  refine ⟨fun s rest hs => exists_reset_step hs (.inl rfl), fun s x rest hs => exists_reset_step hs (.inr ⟨x, rfl⟩),
    fun s => ?_, fun s t ver ecl ht hok => ?_, fun s => step_of_idle⟩
  · exact ⟨_, completesIn_of_exec (w := clearState s) rfl, resetValues_withResp (resetValues_clearState s) _⟩
  · obtain ⟨v, w, heff, rfl⟩ := exec_next_ok ht hok
    cases heff with
    | read _ _ hi => cases hi
    | cfg => simp

/-- Settles O39: the reset state is `clearState` of itself. -/
theorem resetMeetsInvariants : Obligations.ResetMeetsInvariants :=
  ⟨resetValues_clearState State.reset, invFor_clearState _ State.reset, reset_memory_wf,
    windows_clearState _ State.reset, flags_clearState _ State.reset⟩

/-! ## Every word is answered (R40, R136) -/

/-- The result is a next state: no fault and no refusal. -/
def Answers (r : Result) : Prop := ∃ t, r = .next t

theorem answers_respond (v : Val) (s : State) : Answers (respond v s) := ⟨_, respond_eq v s⟩

theorem answers_failWith (code : Status) (s : State) : Answers (failWith code s) := ⟨_, failWith_eq code s⟩

theorem answers_require {cond : Prop} [Decidable cond] {code : Status} {s : State} {rest : Result}
    (h : cond → Answers rest) : Answers (require cond code s rest) := by
  by_cases hc : cond
  · rw [require_pos cond hc]
    exact h hc
  · exact ⟨_, require_neg cond hc code s rest⟩

theorem answers_withSymbol {params : Params} (hw : paramsWellFormed params = true) {ver : BitVec 6} {ecl : BitVec 2}
    (hver : 1 ≤ ver.toNat ∧ ver.toNat ≤ 40) {rest : Symbol → Result} (h : ∀ p, Answers (rest p)) :
    Answers (withSymbol params ver ecl rest) := by
  obtain ⟨p, hp⟩ := Option.isSome_iff_exists.1 ((symbolWith_isSome_iff hw ver ecl).2 hver)
  rw [withSymbol_some params ver ecl p hp]
  exact h p

theorem answers_withElement {sp : Space} {j : Nat} (hj : j < capacity sp) {rest : Result} (h : Answers rest) :
    Answers (withElement sp j rest) := by
  rwa [withElement_pos sp j hj]

theorem execGflog_answers (a : BitVec 8) (s : State) : Answers (execGflog a s) := by
  unfold execGflog
  split
  · exact answers_respond _ s
  · exact answers_failWith _ s

section
variable {params : Params} {s : State} (h : InvFor params s)
include h

/-! A flag that admits a command says that the version has a row (R11, R27 items 1 to 5). -/

theorem version_of_ecv (he : s.ecv = true) : LegalVersion s := h.version (h.blocks he).1

theorem version_of_cwv (hcw : s.cwv = true) : LegalVersion s := version_of_ecv h (h.codewords hcw)

theorem version_of_layv (hl : s.layv = true) : LegalVersion s := by
  refine h.version ?_
  by_contra hc
  obtain ⟨-, -, hno, -⟩ := h.unconfigured (Bool.eq_false_iff.2 hc)
  rw [hno] at hl
  cases hl

variable (hw : paramsWellFormed params = true)
include hw

theorem execRdparWith_answers (k : BitVec 8) : Answers (execRdparWith params k s) := by
  refine answers_require fun _ => answers_require fun hcfg => ?_
  by_cases hk : selectorOf k ≤ 9
  · rw [if_pos hk]
    exact answers_withSymbol hw (h.version (hcfg.resolve_left (by omega))) fun _ => answers_respond _ s
  · rw [if_neg hk]
    exact answers_respond _ s

/-- Every symbol that a command needs exists by its flag, and every element by R27 item 6. -/
theorem execWith_answers (i : Instr) : Answers (execWith params i s) := by
  have hdc := h.dcBound
  have hec := h.ecBound
  have hgen := h.genBound
  cases i with
  | nop | clr | rdstat | gfmul => exact answers_respond _ _
  | gfexp | genp | pushd => exact answers_require fun _ => answers_respond _ _
  | cfg ver ecl => exact answers_require fun hver => answers_withSymbol hw hver fun _ => answers_respond _ _
  | rdpar k => exact execRdparWith_answers h hw k
  | gflog a => exact execGflog_answers a s
  | rsraw k =>
    exact answers_require fun _ => answers_require fun hd => answers_withElement
      (show s.dclen.toNat - 1 < 2956 by omega) (answers_respond _ _)
  | rsblks | run =>
    exact answers_require fun hc => answers_withSymbol hw (h.version hc) fun _ => answers_require fun _ =>
      answers_respond _ _
  | ilv => exact answers_require fun he => answers_withSymbol hw (version_of_ecv h he) fun _ => answers_respond _ _
  | layout => exact answers_require fun hc => answers_withSymbol hw (h.version hc) fun _ => answers_respond _ _
  | place =>
    exact answers_require fun hcw => answers_require fun _ => answers_withSymbol hw (version_of_cwv h hcw) fun _ =>
      answers_respond _ _
  | rddc j =>
    exact answers_require fun hj => answers_withElement (sp := .dc) (hj.trans_le hdc) (answers_respond _ _)
  | rdec j =>
    exact answers_require fun _ => answers_require fun hj => answers_withElement (sp := .ec) (hj.trans_le hec)
      (answers_respond _ _)
  | rdcw j =>
    exact answers_require fun hcw => answers_withSymbol hw (version_of_cwv h hcw) fun _ => answers_require fun _ =>
      answers_respond _ _
  | rdgen j =>
    exact answers_require fun _ => answers_require fun hj => answers_withElement (sp := .gen)
      (Nat.lt_succ_of_le (hj.trans hgen)) (answers_respond _ _)
  | rdmod j =>
    exact answers_require fun hl => answers_withSymbol hw (version_of_layv h hl) fun _ => answers_require fun _ =>
      answers_respond _ _

theorem runWordWith_answers (x : Word) : Answers (runWordWith params x s) := by
  unfold runWordWith runWordBy
  split
  · exact answers_failWith _ s
  · exact answers_failWith _ s
  · exact execWith_answers h hw _

end

/-- R136: the ten codes are 0 to 9. -/
theorem statusCode_le_nine (st : Status) : (statusCode st).toNat ≤ 9 := by cases st <;> decide

/-- What a word answers stands on the port with one of the ten statuses. -/
theorem status_after_runWordWith {params : Params} {x : Word} {s t : State} (ht : runWordWith params x s = .next t) :
    t.resp.isSome = true ∧ (statusOf t).toNat ≤ 9 := by
  have hfail (code : Status) : (failState code s).resp.isSome = true ∧ (statusOf (failState code s)).toNat ≤ 9 :=
    ⟨rfl, (statusOf_failState code s).symm ▸ statusCode_le_nine code⟩
  obtain ⟨-, rfl⟩ | ⟨-, rfl⟩ | ⟨i, -, ht⟩ := runWordBy_next _ x s t ht
  · exact hfail .badOp
  · exact hfail .badArg
  · obtain ⟨code, -, rfl⟩ | ⟨v, w, -, rfl⟩ := execWith_next ht
    · exact hfail code
    · exact ⟨rfl, (statusOf_withResp .ok v w).symm ▸ statusCode_le_nine .ok⟩

theorem exists_answer {params : Params} (hw : paramsWellFormed params = true) (x : Word) {s : State}
    (h : InvFor params s) :
    ∃ t, runWordWith params x s = .next t ∧ t.resp.isSome = true ∧ (statusOf t).toNat ≤ 9 := by
  obtain ⟨t, ht⟩ := runWordWith_answers h hw x
  exact ⟨t, ht, status_after_runWordWith ht⟩

/-- Settles O29: the invariant rules out both faults, and an answer has one of the ten codes. -/
theorem everyWordIsAnswered : Obligations.EveryWordIsAnswered := by
  refine ⟨fun x s h => ?_, fun params x s hw h => exists_answer hw x h⟩
  have hdefault := exists_answer paramsWellFormed_defaultParams x h
  rwa [runWordWith, execWith_defaultParams] at hdefault

/-! ## What each command writes (R11, R18 to R23) -/

theorem effect_keeps_configuration {params : Params} {i : Instr} {s w : State} (heff : Effect params i s w)
    (hclr : i ≠ .clr) (hcfg : ∀ v l, i ≠ .cfg v l) : w.ver = s.ver ∧ w.ecl = s.ecl := by
  cases heff with
  | clr => exact absurd rfl hclr
  | cfg ver ecl => exact absurd rfl (hcfg ver ecl)
  | _ => exact ⟨rfl, rfl⟩

/-- Settles O34: a failure keeps the registers, and so does every other effect. -/
theorem configurationWrittenOnlyByCfg : Obligations.ConfigurationWrittenOnlyByCfg := by
  intro i s t ht hclr hcfg
  obtain ⟨code, -, rfl⟩ | ⟨v, w, heff, rfl⟩ := exec_next ht
  · exact ⟨rfl, rfl⟩
  · rw [withResp_ver, withResp_ecl]
    exact effect_keeps_configuration heff hclr hcfg

/-- The seven spaces, `GENDEG` and the inputs, of which a command changes only the spaces that it writes. -/
def WritesOnly (spaces : List Space) (s t : State) : Prop :=
  (.dc ∉ spaces → t.dc = s.dc) ∧ (.ec ∉ spaces → t.ec = s.ec) ∧ (.cw ∉ spaces → t.cw = s.cw) ∧
  (.gen ∉ spaces → t.gen = s.gen ∧ t.gendeg = s.gendeg) ∧ (.data ∉ spaces → t.data = s.data) ∧
  (.rsvtag ∉ spaces → t.rsvtag = s.rsvtag) ∧ (.rsvdark ∉ spaces → t.rsvdark = s.rsvdark) ∧ t.inputs = s.inputs

theorem writesOnly_of_effect {params : Params} {i : Instr} {s w : State} (heff : Effect params i s w) :
    WritesOnly (writtenSpaces i) s w := by
  cases heff <;> simp [WritesOnly, writtenSpaces, runState]

theorem exec_writesOnly {i : Instr} {s t : State} (ht : exec i s = .next t) : WritesOnly (writtenSpaces i) s t := by
  obtain ⟨code, -, rfl⟩ | ⟨v, w, heff, rfl⟩ := exec_next ht
  · simp [WritesOnly]
  · have hw : WritesOnly (writtenSpaces i) s w := writesOnly_of_effect heff
    exact hw

theorem sameElements_of_eq {α : Type} {b c : Buffer α} (h : c = b) : SameElements b c := fun _ => by rw [h]

/-- Settles O35: every space that a command does not write keeps its listing. -/
theorem spacesHaveTheirWriters : Obligations.SpacesHaveTheirWriters := by
  intro i s t ht
  obtain ⟨hdc, hec, hcw, hgen, hdata, htag, hdark, hinputs⟩ := exec_writesOnly ht
  exact ⟨fun h => sameElements_of_eq (hdc h), fun h => sameElements_of_eq (hec h),
    fun h => sameElements_of_eq (hcw h), fun h => ⟨sameElements_of_eq (hgen h).1, (hgen h).2⟩,
    fun h => sameElements_of_eq (hdata h), fun h => sameElements_of_eq (htag h),
    fun h => sameElements_of_eq (hdark h), hinputs⟩

end Sys2Proof.Proofs
end

section
/-! SUPPORT. The product is that of a field (O43); one turn of the division loop is additive and keeps the value of the buffer at
every root of the generator, so the encoder is linear (O48) and its codewords have zero syndromes (O49). -/

namespace Sys2Proof.Proofs

open Sys2Proof.Machine Sys2Proof.Safety

/-! ## Inverses (R51) -/

/-- An inverse is unique: `b' = b' * (a * b) = (b' * a) * b = b`. -/
theorem gfMul_inverse_unique {a b b' : Byte} (h : gfMul a b = 1#8) (h' : gfMul a b' = 1#8) : b' = b := by
  calc b' = gfMul b' (gfMul a b) := by rw [h, gfMul_one]
    _ = gfMul (gfMul a b') b := by rw [← gfMul_assoc, gfMul_comm b' a]
    _ = b := by rw [h', gfMul_comm, gfMul_one]

theorem exists_gfMul_inverse {a : Byte} (ha : a ≠ 0#8) : ∃ b, gfMul a b = 1#8 := by
  obtain ⟨i, -, rfl⟩ := exists_gfExp_eq ha
  exact ⟨_, gfMul_gfExp_inverse i⟩

/-- Settles O43: every nonzero byte is a power of 2, and those have inverses. -/
theorem gfMulObeysFieldLaws : Obligations.GfMulObeysFieldLaws := by
  refine ⟨gfMul_comm, gfMul_zero, gfMul_one, gfMul_xor_right, gfMul_assoc, fun a ha => ?_⟩
  obtain ⟨b, hb⟩ := exists_gfMul_inverse ha
  exact ⟨b, hb, fun b' => gfMul_inverse_unique hb⟩

/-! ## The division loop (R56) -/

/-- Exclusive-or with nothing but zeros changes nothing. -/
theorem xorInto_zeros {xs ys : List Byte} (h : ∀ y ∈ ys, y = 0#8) : xorInto xs ys = xs := by
  induction xs generalizing ys with
  | nil => rfl
  | cons x xs ih =>
    cases ys with
    | nil => rfl
    | cons y ys =>
      obtain ⟨rfl, hys⟩ := List.forall_mem_cons.1 h
      rw [xorInto, ih hys, BitVec.xor_zero]

/-- The test for a zero coefficient saves work and changes no result (U18). -/
theorem divStep_cons (g : List Byte) (c : Byte) (rest : List Byte) :
    divStep g (c :: rest) = (xorInto (c :: rest) (g.map (gfMul · c))).tail := by
  rw [divStep]
  split
  next hc =>
    rw [xorInto_zeros]
    simp [hc]
  · rfl

theorem xorInto_xorBytes {as bs gs hs : List Byte} (hab : as.length = bs.length) (hgh : gs.length = hs.length) :
    xorInto (xorBytes as bs) (xorBytes gs hs) = xorBytes (xorInto as gs) (xorInto bs hs) := by
  induction as generalizing bs gs hs with
  | nil => obtain rfl := List.length_eq_zero_iff.1 hab.symm; rfl
  | cons a as ih =>
    obtain _ | ⟨b, bs⟩ := bs
    · cases hab
    obtain _ | ⟨g, gs⟩ := gs <;> obtain _ | ⟨h, hs⟩ := hs
    · rfl
    · cases hgh
    · cases hgh
    · have hxor : a ^^^ b ^^^ (g ^^^ h) = a ^^^ g ^^^ (b ^^^ h) := by ac_rfl
      exact congrArg₂ List.cons hxor (ih (Nat.succ.inj hab) (Nat.succ.inj hgh))

theorem divStep_xorBytes (g : List Byte) {as bs : List Byte} (h : as.length = bs.length) :
    divStep g (xorBytes as bs) = xorBytes (divStep g as) (divStep g bs) := by
  obtain _ | ⟨a, as⟩ := as <;> obtain _ | ⟨b, bs⟩ := bs
  · rfl
  · cases h
  · cases h
  · have hmap : g.map (gfMul · (a ^^^ b)) = xorBytes (g.map (gfMul · a)) (g.map (gfMul · b)) := by
      rw [xorBytes, List.zipWith_map, List.zipWith_self]
      exact List.map_congr_left fun x _ => gfMul_xor_right x a b
    have hcons : xorBytes (a :: as) (b :: bs) = (a ^^^ b) :: xorBytes as bs := rfl
    rw [hcons, divStep_cons, ← hcons, hmap, xorInto_xorBytes h (by simp), divStep_cons, divStep_cons, xorBytes, xorBytes,
      List.tail_zipWith]

theorem divSteps_xorBytes (g : List Byte) (n : Nat) {as bs : List Byte} (h : as.length = bs.length) :
    divSteps g n (xorBytes as bs) = xorBytes (divSteps g n as) (divSteps g n bs) := by
  induction n generalizing as bs with
  | zero => rfl
  | succ n ih =>
    rw [divSteps, divStep_xorBytes g h, ih (by rw [length_divStep, length_divStep, h])]
    rfl

/-- R57 item 3. -/
theorem rsEncode_xorBytes {as bs : List Byte} (h : as.length = bs.length) (k : Nat) :
    rsEncode (xorBytes as bs) k = xorBytes (rsEncode as k) (rsEncode bs k) := by
  have hlen : (xorBytes as bs).length = as.length := by simp [xorBytes, h]
  have hzeros : List.replicate k 0#8 = xorBytes (List.replicate k 0#8) (List.replicate k 0#8) := by simp [xorBytes]
  have happend : xorBytes as bs ++ List.replicate k 0#8 =
      xorBytes (as ++ List.replicate k 0#8) (bs ++ List.replicate k 0#8) := by
    rw [xorBytes, xorBytes, List.zipWith_append h, ← xorBytes, ← xorBytes, ← hzeros]
  rw [rsEncode, happend, hlen, divSteps_xorBytes _ _ (by simp [h]), rsEncode, rsEncode, h]

/-- R57 item 5: a leading zero is dropped by the first turn. -/
theorem rsEncode_zero_cons (d : List Byte) (k : Nat) : rsEncode (0#8 :: d) k = rsEncode d k := rfl

/-- R57 item 4. -/
theorem rsEncode_zeros (n k : Nat) : rsEncode (List.replicate n 0#8) k = List.replicate k 0#8 := by
  induction n with
  | zero => rfl
  | succ n ih => rw [List.replicate_succ, rsEncode_zero_cons, ih]

/-- Settles O48: each turn of the division loop is additive, and drops a leading zero. -/
theorem rsEncodeIsLinear : Obligations.RsEncodeIsLinear :=
  ⟨length_rsEncode, fun _ _ k h => rsEncode_xorBytes h k, rsEncode_zeros, rsEncode_zero_cons⟩

/-! ## The codeword at the roots of the generator (R57 item 6) -/

theorem xorBytes_zeros (xs : List Byte) : xorBytes xs (List.replicate xs.length 0#8) = xs := by
  induction xs with
  | nil => rfl
  | cons x xs ih => exact congrArg₂ List.cons BitVec.xor_zero ih

theorem zeros_xorBytes (xs : List Byte) : xorBytes (List.replicate xs.length 0#8) xs = xs := by
  rw [xorBytes, List.zipWith_comm_of_comm BitVec.xor_comm]
  exact xorBytes_zeros xs

/-- Exclusive-or with a shorter list is exclusive-or with that list filled up with zeros. -/
theorem xorInto_eq_xorBytes_append {xs ys : List Byte} (h : ys.length ≤ xs.length) :
    xorInto xs ys = xorBytes xs (ys ++ List.replicate (xs.length - ys.length) 0#8) := by
  induction xs generalizing ys with
  | nil => rfl
  | cons x xs ih =>
    cases ys with
    | nil => exact (xorBytes_zeros (x :: xs)).symm
    | cons y ys =>
      have hlen : ys.length ≤ xs.length := Nat.le_of_succ_le_succ h
      rw [xorInto, ih hlen, List.length_cons, List.length_cons, Nat.add_sub_add_right]
      rfl

theorem polyEval_append_zeros (bs : List Byte) (m : Nat) (x : Byte) (h : polyEval bs x = 0#8) :
    polyEval (bs ++ List.replicate m 0#8) x = 0#8 := by
  induction m with
  | zero => simpa using h
  | succ m ih => rw [List.replicate_succ', ← List.append_assoc, polyEval_append_zero, ih, zero_gfMul]

theorem polyEval_zeros_append (m : Nat) (bs : List Byte) (x : Byte) :
    polyEval (List.replicate m 0#8 ++ bs) x = polyEval bs x := by
  induction m with
  | zero => rfl
  | succ m ih => rw [List.replicate_succ, List.cons_append, polyEval_zero_cons, ih]

/-- A turn cancels the leading byte when the generator leads with 1. -/
theorem xorInto_cons_map {g : List Byte} (hlead : g.head? = some 1#8) (c : Byte) (rest : List Byte) :
    xorInto (c :: rest) (g.map (gfMul · c)) = 0#8 :: divStep g (c :: rest) := by
  obtain ⟨g, rfl⟩ := List.head?_eq_some_iff.1 hlead
  rw [divStep_cons, List.map_cons, xorInto, gfMul_comm, gfMul_one, BitVec.xor_self]
  rfl

/-- A turn keeps the value of the buffer at a root of the generator: it adds a multiple of it. -/
theorem polyEval_divStep {g : List Byte} (hlead : g.head? = some 1#8) {x : Byte} (hroot : polyEval g x = 0#8)
    {c : Byte} {rest : List Byte} (hlen : g.length ≤ rest.length + 1) :
    polyEval (divStep g (c :: rest)) x = polyEval (c :: rest) x := by
  have hfit : (g.map (gfMul · c)).length ≤ (c :: rest).length := by simpa using hlen
  have hmultiple : polyEval (g.map (gfMul · c) ++ List.replicate ((c :: rest).length - (g.map (gfMul · c)).length) 0#8) x
      = 0#8 :=
    polyEval_append_zeros _ _ x (by rw [polyEval_map_gfMul, hroot, zero_gfMul])
  rw [← polyEval_zero_cons, ← xorInto_cons_map hlead, xorInto_eq_xorBytes_append hfit,
    polyEval_xorBytes (by simp only [List.length_append, List.length_replicate]; omega), hmultiple, BitVec.xor_zero]

theorem polyEval_divSteps {g : List Byte} (hlead : g.head? = some 1#8) {x : Byte} (hroot : polyEval g x = 0#8) (n : Nat)
    {buf : List Byte} (hlen : n + g.length ≤ buf.length + 1) : polyEval (divSteps g n buf) x = polyEval buf x := by
  induction n generalizing buf with
  | zero => rfl
  | succ n ih =>
    obtain _ | ⟨c, rest⟩ := buf
    · obtain ⟨g, rfl⟩ := List.head?_eq_some_iff.1 hlead
      simp only [List.length_cons, List.length_nil] at hlen
      omega
    · rw [List.length_cons] at hlen
      rw [divSteps, ih (by rw [length_divStep, List.length_cons]; omega), polyEval_divStep hlead hroot]
      omega

/-- Settles O49: the check bytes have the value of the padded data at the roots of the generator, and cancel it there. -/
theorem codewordHasZeroSyndromes : Obligations.CodewordHasZeroSyndromes := by
  intro d k i hi
  have hdivide : polyEval (rsEncode d k) (gfExp i) = polyEval (d ++ List.replicate k 0#8) (gfExp i) :=
    polyEval_divSteps (head?_genPoly k) (polyEval_genPoly hi) d.length (by simp; omega)
  have hsplit : d ++ rsEncode d k =
      xorBytes (d ++ List.replicate k 0#8) (List.replicate d.length 0#8 ++ rsEncode d k) := by
    have hcheck := zeros_xorBytes (rsEncode d k)
    rw [length_rsEncode] at hcheck
    rw [xorBytes, List.zipWith_append (by simp), ← xorBytes, ← xorBytes, xorBytes_zeros, hcheck]
  rw [hsplit, polyEval_xorBytes (by simp), polyEval_zeros_append, hdivide, BitVec.xor_self]

end Sys2Proof.Proofs
end

section
/-! SUPPORT. The alignment table (O53), the layout as a function of the version (O37), and which stages share cells (O56). -/

namespace Sys2Proof.Proofs

open Sys2Proof.Machine Sys2Proof.Safety

/-! ## The alignment table (R91, R92) -/

theorem alignWellFormed_one {pos : List Nat} (h : alignWellFormed 1 pos = true) : pos = [] :=
  List.isEmpty_iff.1 h

theorem alignWellFormed_iff {v : Nat} (hv : v ≠ 1) (pos : List Nat) : alignWellFormed v pos = true ↔
    pos.head? = some 6 ∧ pos.getLast? = some (gridSide v - 7) ∧ spacedTwelve pos = true ∧ ∀ a ∈ pos, a % 2 = 0 := by
  simp only [alignWellFormed, if_neg hv, Bool.and_eq_true, decide_eq_true_eq, List.all_eq_true, and_assoc]

/-- All coordinates are even. -/
theorem even_of_alignWellFormed {v : Nat} {pos : List Nat} (h : alignWellFormed v pos = true) : ∀ a ∈ pos, a % 2 = 0 := by
  obtain rfl | hv := eq_or_ne v 1
  · rw [alignWellFormed_one h]
    exact nofun
  · obtain ⟨-, -, -, heven⟩ := (alignWellFormed_iff hv pos).1 h
    exact heven

theorem spaced_of_alignWellFormed {v : Nat} {pos : List Nat} (h : alignWellFormed v pos = true) :
    pos.Pairwise fun a b => a + 12 ≤ b := by
  obtain rfl | hv := eq_or_ne v 1
  · rw [alignWellFormed_one h]
    exact .nil
  · obtain ⟨-, -, hspaced, -⟩ := (alignWellFormed_iff hv pos).1 h
    exact pairwise_of_spacedTwelve hspaced

/-- Settles O53: what the check of a version asks of its row of coordinates. -/
theorem alignmentTableIsWellFormed : Obligations.AlignmentTableIsWellFormed := by
  intro params ver ecl p hw hp
  obtain ⟨-, -, halign, -, hsymbol⟩ := symbolWith_rows params ver ecl p hw hp
  have hside : p.n = gridSide ver.toNat := congrArg Symbol.n hsymbol
  refine ⟨fun hone => alignWellFormed_one (hone ▸ halign), fun htwo => ?_,
    (spaced_of_alignWellFormed halign).isChain, even_of_alignWellFormed halign⟩
  obtain ⟨hhead, hlast, -, -⟩ := (alignWellFormed_iff (by omega) p.align).1 halign
  exact ⟨hhead, hside ▸ hlast⟩

/-! ## The layout and the version (R101, R112) -/

theorem layout_next {s t : State} {p : Symbol} (hp : symbolOf s.ver s.ecl = some p) (hc : s.cfgv = true)
    (ht : exec .layout s = .next t) : t = withResp (responseWord .ok (val24 (unreservedCount p))) (layoutState p s) := by
  rw [exec_layout_of_tests hc hp, respond_eq] at ht
  injection ht with ht
  exact ht.symm

/-- Inside the grid, a write of one value for each mark leaves the same whatever stood there. -/
theorem bufGet_write_marks_inside {α : Type} (p : Symbol) (f : Mark → α) (b b' : Buffer α) {i : Nat} (hi : i < p.n * p.n) :
    bufGet (bufWrite b 0 ((layoutMarks p).map f)) i = bufGet (bufWrite b' 0 ((layoutMarks p).map f)) i := by
  have hin : 0 ≤ i ∧ i < 0 + ((layoutMarks p).map f).length := by
    rw [List.length_map, layoutMarks_length]
    omega
  rw [bufGet_bufWrite b, if_pos hin, bufGet_bufWrite b', if_pos hin]

/-- The walk looks at the tags of cells of the grid only. -/
theorem placementCells_congr {n : Nat} {tagAt tagAt' : Nat → Tag} (h : ∀ i, i < n * n → tagAt i = tagAt' i) :
    placementCells n tagAt = placementCells n tagAt' := by
  refine List.filter_congr fun i hi => ?_
  obtain ⟨x, hx, rfl⟩ := List.mem_map.1 hi
  obtain ⟨hr, hc⟩ := bounds_of_mem_visitOrder hx
  rw [h (cellIndex n x.1 x.2) (cell_index_lt hr hc)]

/-- R87: what the stages after the separators leave in a cell. -/
def laterStages (p : Symbol) (r c : Nat) : Option Mark :=
  (darkModuleCell p.n r c).or <| (formatCell p.n r c).or <| (versionCell p.ver p.n r c).or <|
    (alignmentCell p.align r c).or <| timingCell p.n r c

theorem layoutCell_eq_laterStages (p : Symbol) (r c : Nat) : layoutCell p r c =
    ((laterStages p r c).or ((separatorCell p.sepTag p.n r c).or (finderCell p.n r c))).getD unreservedMark := by
  simp only [layoutCell, laterStages, Option.or_assoc]

/-- The separator stage writes the same cells with any `SEP_TAG`. -/
theorem separatorCell_cases (tag tag' : Tag) (n r c : Nat) :
    separatorCell tag n r c = none ∧ separatorCell tag' n r c = none ∨
      separatorCell tag n r c = some ⟨tag, false⟩ ∧ separatorCell tag' n r c = some ⟨tag', false⟩ := by
  unfold separatorCell
  split
  · exact .inr ⟨rfl, rfl⟩
  · exact .inl ⟨rfl, rfl⟩

/-- `SEP_TAG` is the tag of the separator stage, and no other stage looks at it: a cell that differs takes its mark from
that stage. -/
theorem separator_of_layoutCell_ne {p : Symbol} {tag : Tag} {r c : Nat}
    (hne : layoutCell { p with sepTag := tag } r c ≠ layoutCell p r c) :
    layoutCell p r c = ⟨p.sepTag, false⟩ ∧ layoutCell { p with sepTag := tag } r c = ⟨tag, false⟩ := by
  have hlater : laterStages { p with sepTag := tag } r c = laterStages p r c := rfl
  rw [layoutCell_eq_laterStages p, layoutCell_eq_laterStages { p with sepTag := tag }, hlater] at hne ⊢
  cases hstages : laterStages p r c with
  | some m => simp [hstages] at hne
  | none =>
    dsimp only at hne ⊢
    rw [hstages, Option.none_or, Option.none_or] at hne
    obtain ⟨hsep, hsep'⟩ | ⟨hsep, hsep'⟩ := separatorCell_cases p.sepTag tag p.n r c
    · exact absurd (by rw [hsep, hsep']) hne
    · simp [hsep, hsep']

/-- Settles O37: the symbols of one version differ in the block structure only, of which the layout takes nothing. -/
theorem layoutDependsOnVersionOnly : Obligations.LayoutDependsOnVersionOnly := by
  refine ⟨fun s s' t t' p hver hp hc hc' ht ht' => ?_, fun _ _ _ _ => separator_of_layoutCell_ne⟩
  obtain ⟨p', hp', -⟩ := withSymbol_next _ _ _ _ _ ((require_pos _ hc' _ _ _).symm.trans ht')
  obtain rfl := layout_next hp hc ht
  obtain rfl := layout_next hp' hc' ht'
  rw [← hver] at hp'
  rw [symbolWith_levels hp hp']
  have htag (i : Nat) (hi : i < p.n * p.n) :=
    bufGet_write_marks_inside p (·.tag) s.rsvtag s'.rsvtag hi
  refine ⟨rfl, fun i hi => ⟨?_, htag i hi, ?_⟩, placementCells_congr fun i hi => ?_⟩
  · exact bufGet_write_marks_inside p (·.dark) s.data s'.data hi
  · exact bufGet_write_marks_inside p (·.dark) s.rsvdark s'.rsvdark hi
  · exact congrArg (·.getD (Config.unspecifiedTag i)) (htag i hi)

/-! ## Stages that share a cell (R87, R92) -/

/-- The rectangles of the stages do not depend on `SEP_TAG`, so any well-formed parameters give those of the default tag. -/
theorem regular_of_symbolWith {params : Params} (hw : paramsWellFormed params = true) {ver : BitVec 6} {ecl : BitVec 2}
    {p : Symbol} (hp : symbolWith params ver ecl = some p) : Regular { p with sepTag := .separator } := by
  obtain ⟨hver, -, halign, -, hsymbol⟩ := symbolWith_rows params ver ecl p hw hp
  have hv : p.ver = ver.toNat := congrArg Symbol.ver hsymbol
  have hside : p.n = gridSide ver.toNat := congrArg Symbol.n hsymbol
  exact ⟨hv ▸ hver, hv ▸ hside, hside ▸ centres_of_alignWellFormed hver halign, rfl⟩

theorem stageCell_isSome_iff {p : Symbol} (hp : Regular { p with sepTag := .separator }) {r c : Nat} (hr : r < p.n)
    (hc : c < p.n) (t : Tag) : (stageCell p r c t).isSome = true ↔ covered (tagRects p t) r c = true := by
  rw [← show tagRects { p with sepTag := .separator } t = tagRects p t by cases t <;> rfl,
    ← hp.stageCell_isSome_iff hr hc]
  cases t with
  | separator => simp only [stageCell, separatorCell, isSome_ite_some]
  | _ => rfl

/-- R93: a cell of the alignment stage lies in a pattern around a centre that is not skipped, which gives its colour. -/
theorem exists_centre_of_alignmentCell {pos : List Nat} {r c : Nat} {m : Mark} (h : alignmentCell pos r c = some m) :
    ∃ a ∈ pos, ∃ b ∈ pos, coordDist r a ≤ 2 ∧ coordDist c b ≤ 2 ∧
      m.dark = decide (max (coordDist r a) (coordDist c b) ≠ 1) := by
  obtain ⟨a, ha, h⟩ := List.exists_of_findSome?_eq_some h
  obtain ⟨b, hb, h⟩ := List.exists_of_findSome?_eq_some h
  simp only [List.mem_filter, decide_eq_true_eq] at ha hb
  split at h
  · cases h
  · obtain rfl := Option.some.inj h
    exact ⟨a, ha.1, b, hb.1, ha.2, hb.2, rfl⟩

theorem Centres.eq_six {n : Nat} {pos : List Nat} (h : Centres n pos) {a : Nat} (ha : a ∈ pos) (hlt : a < 18) : a = 6 := by
  cases h with
  | empty => cases ha
  | ends mid hn hspaced hmid =>
    obtain rfl | ha := List.mem_cons.1 ha
    · rfl
    · have := (Centres.ends mid hn hspaced hmid).tail_bounds ha
      omega

/-- The centre of a pattern over row 6 or column 6 lies on that line. -/
theorem Centres.eq_six_of_near {n : Nat} {pos : List Nat} (h : Centres n pos) {a : Nat} (ha : a ∈ pos)
    (hnear : coordDist 6 a ≤ 2) : a = 6 :=
  h.eq_six ha (by unfold coordDist at hnear; omega)

/-- R93: on a timing line through its centre, a pattern has the colours of the line, because its centre is even. -/
theorem decide_max_coordDist_eq {x b : Nat} (hb : b % 2 = 0) (hnear : coordDist x b ≤ 2) :
    decide (max (coordDist 6 6) (coordDist x b) ≠ 1) = decide (x % 2 = 0) := by
  have hzero : coordDist 6 6 = 0 := rfl
  rw [hzero, Nat.zero_max, decide_eq_decide]
  unfold coordDist at *
  omega

/-- A timing cell that an alignment pattern covers has one colour. -/
theorem dark_eq_of_timing_of_alignment {n : Nat} {pos : List Nat} (hpos : Centres n pos) (heven : ∀ a ∈ pos, a % 2 = 0)
    {r c : Nat} {m m' : Mark} (hm : timingCell n r c = some m) (hm' : alignmentCell pos r c = some m') :
    m.dark = m'.dark ∧ (r = 6 ∨ c = 6) := by
  obtain ⟨a, ha, b, hb, hra, hcb, hdark⟩ := exists_centre_of_alignmentCell hm'
  unfold timingCell at hm
  split at hm
  next hrow =>
    obtain ⟨rfl, -⟩ := hrow
    obtain rfl := hpos.eq_six_of_near ha hra
    obtain rfl := Option.some.inj hm
    exact ⟨(hdark.trans (decide_max_coordDist_eq (heven b hb) hcb)).symm, .inl rfl⟩
  · split at hm
    next hcol =>
      obtain ⟨rfl, -⟩ := hcol
      obtain rfl := hpos.eq_six_of_near hb hcb
      obtain rfl := Option.some.inj hm
      rw [max_comm] at hdark
      exact ⟨(hdark.trans (decide_max_coordDist_eq (heven a ha) hra)).symm, .inr rfl⟩
    · cases hm

/-- A pattern over a timing line is centred between the first coordinate and the last. -/
theorem three_le_length_of_overlap {p : Symbol} (hp : Regular p) {r c : Nat}
    (htiming : covered (tagRects p .timing) r c = true) (halign : covered (tagRects p .alignment) r c = true) :
    3 ≤ p.align.length := by
  obtain ⟨R, hR, -⟩ := covered_iff.1 ((hp.covered_overlapRects_iff r c).2 ⟨htiming, halign⟩)
  obtain ⟨a, ha, -⟩ := mem_overlapRects.1 hR
  have := List.length_pos_of_mem ha
  simp only [List.length_dropLast, List.length_tail] at this
  omega

theorem align_of_symbolWith {params : Params} {ver : BitVec 6} {ecl : BitVec 2} {p : Symbol}
    (hp : symbolWith params ver ecl = some p) : params.align[ver.toNat - 1]? = some p.align := by
  unfold symbolWith at hp
  split at hp
  · cases hp
  · split at hp
    next halign => rw [halign, symbolFromRow_eq hp]
    · cases hp

/-- R91: the default rows of the versions below 7 have at most two coordinates. -/
theorem seven_le_of_three_le_length {ver : BitVec 6} {ecl : BitVec 2} {p : Symbol} (hp : symbolOf ver ecl = some p)
    (hlen : 3 ≤ p.align.length) : 7 ≤ ver.toNat := by
  have hshort : ∀ i < 6, ∀ pos ∈ alignTable[i]?, pos.length < 3 := by decide
  by_contra hlt
  have := hshort (ver.toNat - 1) (by omega) p.align (align_of_symbolWith hp)
  omega

/-- The stages in their order (R87), as the statement lists them. -/
theorem stages_eq_map (p : Symbol) (r c : Nat) :
    [finderCell p.n r c, separatorCell p.sepTag p.n r c, timingCell p.n r c, alignmentCell p.align r c,
      versionCell p.ver p.n r c, formatCell p.n r c, darkModuleCell p.n r c] =
      stageOrder.reverse.map (stageCell p r c) := rfl

/-- A stage has one place in the order. -/
theorem stage_index_unique {i j : Nat} {t : Tag} (hi : stageOrder.reverse[i]? = some t)
    (hj : stageOrder.reverse[j]? = some t) : i = j :=
  (List.getElem?_inj (List.getElem?_eq_some_iff.1 hi).1 (by decide)).1 (hi.trans hj.symm)

/-- Settles O56: the rectangles of two stages are apart but for timing and alignment, which give a shared cell one colour. -/
theorem stagesShareOnlyTimingCells : Obligations.StagesShareOnlyTimingCells := by
  intro params ver ecl p hw hp r c hr hc i j a b hij hi hj
  rw [stages_eq_map, List.getElem?_map, Option.map_eq_some_iff] at hi hj
  obtain ⟨t, ht, hi⟩ := hi
  obtain ⟨u, hu, hj⟩ := hj
  have hregular := regular_of_symbolWith hw hp
  have hcovt := (stageCell_isSome_iff hregular hr hc t).1 (Option.isSome_of_eq_some hi)
  have hcovu := (stageCell_isSome_iff hregular hr hc u).1 (Option.isSome_of_eq_some hj)
  have hne : t ≠ u := fun e => Nat.ne_of_lt hij (stage_index_unique ht (e ▸ hu))
  have hnotAT : ¬ (t = .alignment ∧ u = .timing) := by
    rintro ⟨rfl, rfl⟩
    have hi3 : i = 3 := stage_index_unique ht rfl
    have hj2 : j = 2 := stage_index_unique hu rfl
    omega
  obtain ⟨rfl, rfl⟩ : t = .timing ∧ u = .alignment := by
    by_contra hnotTA
    exact hregular.not_covered hne hnotTA hnotAT hcovt hcovu
  obtain ⟨-, -, halign, -, -⟩ := symbolWith_rows params ver ecl p hw hp
  obtain ⟨hdark, hline⟩ := dark_eq_of_timing_of_alignment hregular.centres (even_of_alignWellFormed halign) hi hj
  have hlen : 3 ≤ p.align.length :=
    three_le_length_of_overlap (p := { p with sepTag := .separator }) hregular hcovt hcovu
  exact ⟨stage_index_unique ht rfl, stage_index_unique hu rfl, hdark, hline, hlen,
    fun hdefault => seven_le_of_three_le_length (hdefault ▸ hp) hlen⟩

end Sys2Proof.Proofs
end

section
/-! SUPPORT. The layout as a sequence of writes (R87 to R100): the writes of each stage leave in a cell what the stage's closed form
gives, and the last stage that writes a cell decides (O54). -/

namespace Sys2Proof.Proofs

open Sys2Proof.Machine Sys2Proof.Safety

/-! ## The last write of a cell -/

section
variable {r c : Nat}

/-- A sequence of writes leaves its last write of the cell, and what was there before if it has none. -/
theorem foldl_puts (puts : List Put) (m : Option Mark) :
    puts.foldl (fun m x => if x.row = r ∧ x.col = c then some x.mark else m) m = (lastPut puts r c).or m := by
  induction puts generalizing m with
  | nil => rfl
  | cons x puts ih =>
    rw [lastPut, List.foldl_cons, List.foldl_cons, ih, ih (if x.row = r ∧ x.col = c then some x.mark else none)]
    split <;> cases lastPut puts r c <;> rfl

theorem lastPut_append (puts puts' : List Put) :
    lastPut (puts ++ puts') r c = (lastPut puts' r c).or (lastPut puts r c) := by
  rw [lastPut, List.foldl_append, foldl_puts puts']
  rfl

theorem lastPut_cons (x : Put) (puts : List Put) :
    lastPut (x :: puts) r c = (lastPut puts r c).or (if x.row = r ∧ x.col = c then some x.mark else none) := by
  rw [lastPut, List.foldl_cons, foldl_puts]

/-- Either no write is to the cell, or one of them is what the sequence leaves. -/
theorem lastPut_cases (puts : List Put) : lastPut puts r c = none ∧ (∀ x ∈ puts, ¬ (x.row = r ∧ x.col = c)) ∨
    ∃ x ∈ puts, (x.row = r ∧ x.col = c) ∧ lastPut puts r c = some x.mark := by
  induction puts with
  | nil => exact .inl ⟨rfl, nofun⟩
  | cons x puts ih =>
    rw [lastPut_cons]
    obtain ⟨hnone, hno⟩ | ⟨y, hy, hcell, hsome⟩ := ih
    · by_cases hx : x.row = r ∧ x.col = c
      · exact .inr ⟨x, List.mem_cons_self, hx, by rw [hnone, if_pos hx]; rfl⟩
      · exact .inl ⟨by rw [hnone, if_neg hx]; rfl, List.forall_mem_cons.2 ⟨hx, hno⟩⟩
    · exact .inr ⟨y, List.mem_cons_of_mem x hy, hcell, by rw [hsome]; rfl⟩

end

/-- A sequence of writes draws a stage on a grid: every write gives its cell what the stage gives it, and every cell that
the stage writes has a write. -/
structure Draws (n : Nat) (puts : List Put) (cell : Nat → Nat → Option Mark) : Prop where
  sound : ∀ x ∈ puts, x.row < n → x.col < n → cell x.row x.col = some x.mark
  complete : ∀ r c, r < n → c < n → (cell r c).isSome = true → ∃ x ∈ puts, x.row = r ∧ x.col = c

theorem Draws.lastPut_eq {n : Nat} {puts : List Put} {cell : Nat → Nat → Option Mark} (h : Draws n puts cell) {r c : Nat}
    (hr : r < n) (hc : c < n) : lastPut puts r c = cell r c := by
  obtain ⟨hnone, hno⟩ | ⟨x, hx, ⟨rfl, rfl⟩, hsome⟩ := lastPut_cases (r := r) (c := c) puts
  · rw [hnone]
    by_contra hne
    obtain ⟨x, hx, hcell⟩ := h.complete r c hr hc (Option.isSome_iff_ne_none.2 (Ne.symm hne))
    exact hno x hx hcell
  · rw [hsome, h.sound x hx hr hc]

/-! ## Every stage is drawn by its writes -/

theorem draws_clear (n : Nat) : Draws n (clearPuts n) fun _ _ => some unreservedMark where
  sound x hx _ _ := by
    simp only [clearPuts, List.mem_flatMap, List.mem_map, List.mem_range] at hx
    obtain ⟨r, -, c, -, rfl⟩ := hx
    rfl
  complete r c hr hc _ := by
    simp only [clearPuts, List.mem_flatMap, List.mem_map, List.mem_range]
    exact ⟨_, ⟨r, hr, c, hc, rfl⟩, rfl, rfl⟩

section
variable {n : Nat}

theorem mem_finderPuts {x : Put} : x ∈ finderPuts n ↔ ∃ i < 7, ∃ j < 7,
    x = ⟨i, j, .finder, finderColour i j⟩ ∨ x = ⟨i, n - 7 + j, .finder, finderColour i j⟩ ∨
      x = ⟨n - 7 + i, j, .finder, finderColour i j⟩ := by
  simp only [finderPuts, List.mem_flatMap, List.mem_map, List.mem_range, List.mem_cons, List.not_mem_nil, or_false]
  constructor
  · rintro ⟨o, rfl | rfl | rfl, i, hi, j, hj, rfl⟩
    · exact ⟨i, hi, j, hj, .inl (by simp)⟩
    · exact ⟨i, hi, j, hj, .inr (.inl (by simp))⟩
    · exact ⟨i, hi, j, hj, .inr (.inr (by simp))⟩
  · rintro ⟨i, hi, j, hj, rfl | rfl | rfl⟩
    · exact ⟨_, .inl rfl, i, hi, j, hj, by simp⟩
    · exact ⟨_, .inr (.inl rfl), i, hi, j, hj, by simp⟩
    · exact ⟨_, .inr (.inr rfl), i, hi, j, hj, by simp⟩

theorem draws_finder (hn : 21 ≤ n) : Draws n (finderPuts n) (finderCell n) where
  sound x hx _ _ := by
    obtain ⟨i, hi, j, hj, rfl | rfl | rfl⟩ := mem_finderPuts.1 hx <;> unfold finderCell <;> dsimp only
    · rw [if_pos (by omega)]
    · rw [if_neg (by omega), if_pos (by omega), Nat.add_sub_cancel_left]
    · rw [if_neg (by omega), if_neg (by omega), if_pos (by omega), Nat.add_sub_cancel_left]
  complete r c hr hc h := by
    simp only [finderCell, isSome_ite_some, Option.isSome_none, Bool.false_eq_true, or_false] at h
    obtain ⟨hr6, hc6⟩ | ⟨hr6, hc6⟩ | ⟨hr6, hc6⟩ := h
    · exact ⟨_, mem_finderPuts.2 ⟨r, by omega, c, by omega, .inl rfl⟩, rfl, rfl⟩
    · exact ⟨_, mem_finderPuts.2 ⟨r, by omega, c - (n - 7), by omega, .inr (.inl rfl)⟩, rfl, by dsimp only; omega⟩
    · exact ⟨_, mem_finderPuts.2 ⟨r - (n - 7), by omega, c, by omega, .inr (.inr rfl)⟩, by dsimp only; omega, rfl⟩

theorem mem_separatorPuts {sepTag : Tag} {x : Put} : x ∈ separatorPuts sepTag n ↔ ∃ k < 8,
    x = ⟨7, k, sepTag, false⟩ ∨ x = ⟨k, 7, sepTag, false⟩ ∨ x = ⟨7, n - 8 + k, sepTag, false⟩ ∨
      x = ⟨k, n - 8, sepTag, false⟩ ∨ x = ⟨n - 8, k, sepTag, false⟩ ∨ x = ⟨n - 8 + k, 7, sepTag, false⟩ := by
  simp only [separatorPuts, List.mem_flatMap, List.mem_range, List.mem_cons, List.not_mem_nil, or_false]

theorem draws_separator (sepTag : Tag) (hn : 21 ≤ n) : Draws n (separatorPuts sepTag n) (separatorCell sepTag n) where
  sound x hx _ _ := by
    obtain ⟨k, hk, hx⟩ := mem_separatorPuts.1 hx
    unfold separatorCell
    obtain rfl | rfl | rfl | rfl | rfl | rfl := hx <;> exact if_pos (by dsimp only; omega)
  complete r c hr hc h := by
    simp only [separatorCell, isSome_ite_some, Option.isSome_none, Bool.false_eq_true, or_false] at h
    simp only [mem_separatorPuts]
    obtain ⟨rfl, hc | hc⟩ | ⟨rfl, hr | hr⟩ | ⟨rfl, hc⟩ | ⟨rfl, hr⟩ := h
    · exact ⟨_, ⟨c, by omega, .inl rfl⟩, rfl, rfl⟩
    · exact ⟨_, ⟨c - (n - 8), by omega, .inr (.inr (.inl rfl))⟩, rfl, by dsimp only; omega⟩
    · exact ⟨_, ⟨r, by omega, .inr (.inl rfl)⟩, rfl, rfl⟩
    · exact ⟨_, ⟨r - (n - 8), by omega, .inr (.inr (.inr (.inr (.inr rfl))))⟩, by dsimp only; omega, rfl⟩
    · exact ⟨_, ⟨c, by omega, .inr (.inr (.inr (.inr (.inl rfl))))⟩, rfl, rfl⟩
    · exact ⟨_, ⟨r, by omega, .inr (.inr (.inr (.inl rfl)))⟩, rfl, rfl⟩

theorem mem_timingPuts {x : Put} : x ∈ timingPuts n ↔ ∃ j < n - 16,
    x = ⟨6, 8 + j, .timing, decide ((8 + j) % 2 = 0)⟩ ∨ x = ⟨8 + j, 6, .timing, decide ((8 + j) % 2 = 0)⟩ := by
  simp only [timingPuts, List.mem_flatMap, List.mem_range, List.mem_cons, List.not_mem_nil, or_false]

theorem draws_timing (hn : 21 ≤ n) : Draws n (timingPuts n) (timingCell n) where
  sound x hx _ _ := by
    obtain ⟨j, hj, rfl | rfl⟩ := mem_timingPuts.1 hx <;> unfold timingCell <;> dsimp only
    · rw [if_pos (by omega)]
    · rw [if_neg (by omega), if_pos (by omega)]
  complete r c hr hc h := by
    simp only [timingCell, isSome_ite_some, Option.isSome_none, Bool.false_eq_true, or_false] at h
    obtain ⟨rfl, hc8, hcn⟩ | ⟨rfl, hr8, hrn⟩ := h
    · exact ⟨_, mem_timingPuts.2 ⟨c - 8, by omega, .inl rfl⟩, rfl, by dsimp only; omega⟩
    · exact ⟨_, mem_timingPuts.2 ⟨r - 8, by omega, .inr rfl⟩, by dsimp only; omega, rfl⟩

theorem mem_versionPuts {v : Nat} {x : Put} : x ∈ versionPuts v n ↔ 7 ≤ v ∧ ∃ i < 18,
    x = ⟨i / 3, n - 11 + i % 3, .versionInfo, (versionWord v).getLsbD i⟩ ∨
      x = ⟨n - 11 + i % 3, i / 3, .versionInfo, (versionWord v).getLsbD i⟩ := by
  unfold versionPuts
  split
  next hv =>
    simp only [List.mem_flatMap, List.mem_range, List.mem_cons, List.not_mem_nil, or_false, hv, true_and]
  next hv => simp [hv]

theorem draws_version {v : Nat} (hn : n = 4 * v + 17) : Draws n (versionPuts v n) (versionCell v n) where
  sound x hx _ _ := by
    obtain ⟨hv, i, hi, hx⟩ := mem_versionPuts.1 hx
    have hbit : 3 * (i / 3) + (n - 11 + i % 3 - (n - 11)) = i := by omega
    obtain rfl | rfl := hx <;> unfold versionCell <;> dsimp only
    · rw [if_pos (by omega), hbit]
    · rw [if_neg (by omega), if_pos (by omega), hbit]
  complete r c hr hc h := by
    simp only [versionCell, isSome_ite_some, Option.isSome_none, Bool.false_eq_true, or_false] at h
    obtain ⟨hv, hr5, hc11, hc9⟩ | ⟨hv, hc5, hr11, hr9⟩ := h
    · exact ⟨_, mem_versionPuts.2 ⟨hv, 3 * r + (c - (n - 11)), by omega, .inl rfl⟩, by dsimp only; omega,
        by dsimp only; omega⟩
    · exact ⟨_, mem_versionPuts.2 ⟨hv, 3 * c + (r - (n - 11)), by omega, .inr rfl⟩, by dsimp only; omega,
        by dsimp only; omega⟩

theorem mem_formatPuts {x : Put} : x ∈ formatPuts n ↔ ∃ k < 9,
    k ≠ 6 ∧ x = ⟨8, k, .formatInfo, false⟩ ∨ k < 8 ∧ k ≠ 6 ∧ x = ⟨k, 8, .formatInfo, false⟩ ∨
      k < 8 ∧ x = ⟨8, n - 8 + k, .formatInfo, false⟩ ∨ k < 7 ∧ x = ⟨n - 7 + k, 8, .formatInfo, false⟩ := by
  have hrow (k : Nat) : k ∈ [0, 1, 2, 3, 4, 5, 7, 8] ↔ k < 9 ∧ k ≠ 6 := by
    simp only [List.mem_cons, List.not_mem_nil, or_false]; omega
  have hcol (k : Nat) : k ∈ [0, 1, 2, 3, 4, 5, 7] ↔ k < 8 ∧ k ≠ 6 := by
    simp only [List.mem_cons, List.not_mem_nil, or_false]; omega
  simp only [formatPuts, List.mem_append, List.mem_map, List.mem_range, hrow, hcol]
  constructor
  · rintro (((⟨k, ⟨hk, h6⟩, rfl⟩ | ⟨k, ⟨hk, h6⟩, rfl⟩) | ⟨k, hk, rfl⟩) | ⟨k, hk, rfl⟩)
    · exact ⟨k, hk, .inl ⟨h6, rfl⟩⟩
    · exact ⟨k, by omega, .inr (.inl ⟨hk, h6, rfl⟩)⟩
    · exact ⟨k, by omega, .inr (.inr (.inl ⟨hk, rfl⟩))⟩
    · exact ⟨k, by omega, .inr (.inr (.inr ⟨hk, rfl⟩))⟩
  · rintro ⟨k, hk, ⟨h6, rfl⟩ | ⟨hk, h6, rfl⟩ | ⟨hk, rfl⟩ | ⟨hk, rfl⟩⟩
    · exact .inl (.inl (.inl ⟨k, ⟨hk, h6⟩, rfl⟩))
    · exact .inl (.inl (.inr ⟨k, ⟨hk, h6⟩, rfl⟩))
    · exact .inl (.inr ⟨k, hk, rfl⟩)
    · exact .inr ⟨k, hk, rfl⟩

theorem draws_format (hn : 21 ≤ n) : Draws n (formatPuts n) (formatCell n) where
  sound x hx _ _ := by
    obtain ⟨k, hk, ⟨h6, rfl⟩ | ⟨hk, h6, rfl⟩ | ⟨hk, rfl⟩ | ⟨hk, rfl⟩⟩ := mem_formatPuts.1 hx <;> unfold formatCell <;>
      dsimp only
    · rw [if_pos (by omega)]
    · rw [if_neg (by omega), if_pos (by omega)]
    · rw [if_pos (by omega)]
    · rw [if_neg (by omega), if_pos (by omega)]
  complete r c hr hc h := by
    simp only [formatCell, isSome_ite_some, Option.isSome_none, Bool.false_eq_true, or_false] at h
    simp only [mem_formatPuts]
    obtain ⟨rfl, hc⟩ | ⟨rfl, hr⟩ := h
    · by_cases hleft : c ≤ 8
      · exact ⟨_, ⟨c, by omega, .inl ⟨by omega, rfl⟩⟩, rfl, rfl⟩
      · exact ⟨_, ⟨c - (n - 8), by omega, .inr (.inr (.inl ⟨by omega, rfl⟩))⟩, rfl, by dsimp only; omega⟩
    · by_cases htop : r ≤ 7
      · exact ⟨_, ⟨r, by omega, .inr (.inl ⟨by omega, by omega, rfl⟩)⟩, rfl, rfl⟩
      · exact ⟨_, ⟨r - (n - 7), by omega, .inr (.inr (.inr ⟨by omega, rfl⟩))⟩, by dsimp only; omega, rfl⟩

theorem draws_darkModule (n : Nat) : Draws n (darkModulePuts n) (darkModuleCell n) where
  sound x hx _ _ := by
    obtain rfl := List.mem_singleton.1 hx
    exact if_pos ⟨rfl, rfl⟩
  complete r c _ _ h := by
    simp only [darkModuleCell, isSome_ite_some, Option.isSome_none, Bool.false_eq_true, or_false] at h
    exact ⟨_, List.mem_singleton_self _, h.1.symm, h.2.symm⟩

end

/-! ## The alignment patterns (R93) -/

theorem Centres.spaced {n : Nat} {pos : List Nat} (h : Centres n pos) : pos.Pairwise fun a b => a + 12 ≤ b := by
  cases h with
  | empty => exact .nil
  | ends mid hn hspaced hmid =>
    have h := Centres.ends mid hn hspaced hmid
    refine List.pairwise_cons.2 ⟨fun a ha => ?_, h.tail_spaced⟩
    have := h.tail_bounds ha
    omega

/-- At most one coordinate is near. -/
theorem Centres.near_unique {n : Nat} {pos : List Nat} (h : Centres n pos) {x a b : Nat} (ha : a ∈ pos) (hb : b ∈ pos)
    (hxa : coordDist x a ≤ 2) (hxb : coordDist x b ≤ 2) : a = b := by
  by_contra hne
  have hsymm : Std.Symm fun a b : Nat => a + 12 ≤ b ∨ b + 12 ≤ a := ⟨fun _ _ => Or.symm⟩
  have hapart : a + 12 ≤ b ∨ b + 12 ≤ a :=
    (h.spaced.imp (S := fun a b => a + 12 ≤ b ∨ b + 12 ≤ a) fun hab => .inl hab).forall ha hb hne
  unfold coordDist at hxa hxb
  omega

/-- The one pattern near a cell gives its mark. -/
theorem Centres.alignmentCell_eq {n : Nat} {pos : List Nat} (h : Centres n pos) {r c a b : Nat} (ha : a ∈ pos)
    (hb : b ∈ pos) (hra : coordDist r a ≤ 2) (hcb : coordDist c b ≤ 2) (hplaced : ¬ skippedCentre pos a b = true) :
    alignmentCell pos r c = some ⟨.alignment, decide (max (coordDist r a) (coordDist c b) ≠ 1)⟩ := by
  obtain ⟨m, hm⟩ := Option.isSome_iff_exists.1
    ((alignmentCell_isSome_iff pos r c).2 ⟨a, ha, b, hb, hra, hcb, hplaced⟩)
  obtain ⟨a', ha', b', hb', hra', hcb', hdark⟩ := exists_centre_of_alignmentCell hm
  rw [h.near_unique ha' ha hra' hra, h.near_unique hb' hb hcb' hcb] at hdark
  rw [hm, ← hdark, ← tag_of_alignmentCell hm]

theorem mem_alignmentPuts {pos : List Nat} {x : Put} : x ∈ alignmentPuts pos ↔
    ∃ a ∈ pos, ∃ b ∈ pos, ¬ skippedCentre pos a b = true ∧ ∃ i < 5, ∃ j < 5,
      x = ⟨a + i - 2, b + j - 2, .alignment, decide (max (coordDist i 2) (coordDist j 2) ≠ 1)⟩ := by
  simp only [alignmentPuts, List.mem_flatMap]
  refine exists_congr fun a => and_congr_right fun _ => exists_congr fun b => and_congr_right fun _ => ?_
  split
  next hskip => simp [hskip]
  next hskip =>
    simp only [List.mem_flatMap, List.mem_map, List.mem_range, hskip, Bool.false_eq_true, not_false_eq_true, true_and]
    exact exists_congr fun i => and_congr_right fun _ => exists_congr fun j => and_congr_right fun _ => eq_comm

/-- The distance to a centre from the offset `i - 2`. -/
theorem coordDist_offset {a : Nat} (ha : 2 ≤ a) (i : Nat) : coordDist (a + i - 2) a = coordDist i 2 := by
  unfold coordDist
  omega

theorem Centres.draws_alignment {n : Nat} {pos : List Nat} (h : Centres n pos) :
    Draws n (alignmentPuts pos) (alignmentCell pos) where
  sound x hx _ _ := by
    obtain ⟨a, ha, b, hb, hplaced, i, hi, j, hj, rfl⟩ := mem_alignmentPuts.1 hx
    have hra := coordDist_offset (h.two_le ha) i
    have hcb := coordDist_offset (h.two_le hb) j
    have hnear {k : Nat} (hk : k < 5) : coordDist k 2 ≤ 2 := by unfold coordDist; omega
    rw [← hra, ← hcb]
    exact h.alignmentCell_eq ha hb (hra ▸ hnear hi) (hcb ▸ hnear hj) hplaced
  complete r c _ _ hsome := by
    obtain ⟨a, ha, b, hb, hra, hcb, hplaced⟩ := (alignmentCell_isSome_iff pos r c).1 hsome
    have ha2 := h.two_le ha
    have hb2 := h.two_le hb
    unfold coordDist at hra hcb
    exact ⟨_, mem_alignmentPuts.2 ⟨a, ha, b, hb, hplaced, r + 2 - a, by omega, c + 2 - b, by omega, rfl⟩,
      by dsimp only; omega, by dsimp only; omega⟩

/-- Settles O54: stage by stage; the sequence starts with `None` on every cell, so every cell is written. -/
theorem layoutEqualsSequenceOfWrites : Obligations.LayoutEqualsSequenceOfWrites := by
  intro params ver ecl p hw hp r c hr hc
  obtain ⟨hver, hside, hcentres, -⟩ := regular_of_symbolWith hw hp
  have hn : 21 ≤ p.n := by dsimp only at hver hside; omega
  simp only [layoutPuts, lastPut_append, (draws_clear p.n).lastPut_eq hr hc, (draws_finder hn).lastPut_eq hr hc,
    (draws_separator p.sepTag hn).lastPut_eq hr hc, (draws_timing hn).lastPut_eq hr hc,
    hcentres.draws_alignment.lastPut_eq hr hc, (draws_version hside).lastPut_eq hr hc,
    (draws_format hn).lastPut_eq hr hc, (draws_darkModule p.n).lastPut_eq hr hc]
  simp only [layoutCell, Option.or_some, Option.getD_or]

end Sys2Proof.Proofs
end

section
/-! SUPPORT. The zigzag walk visits every cell outside column 6 (O58), so it reaches every unreserved cell (O59); the one-cell filler
takes the cells of the walk one by one (O60). -/

namespace Sys2Proof.Proofs

open Sys2Proof.Machine Sys2Proof.Safety

/-! ## The cells of the walk (R106) -/

/-- Where a column pair of the walk starts, or the end of the walk: even columns right of column 6, odd ones left of it. -/
def PairColumn (col : Nat) : Prop := col = 0 ∨ col % 2 = 0 ∧ 8 ≤ col ∨ col % 2 = 1 ∧ col ≤ 5

theorem pairColumn_next {col : Nat} (h : PairColumn col) : PairColumn (nextColumn col) := by
  unfold PairColumn nextColumn at *
  split <;> omega

/-- From a pair on, the walk visits every column from there to the left but column 6. -/
theorem mem_visitFrom {n fuel col : Nat} {up : Bool} (hcol : PairColumn col) (hfuel : col ≤ fuel) (r c : Nat) :
    (r, c) ∈ visitFrom n fuel col up ↔ r < n ∧ c ≤ col ∧ c ≠ 6 ∧ 1 ≤ col := by
  induction fuel generalizing col up with
  | zero =>
    obtain rfl : col = 0 := by omega
    simp [visitFrom]
  | succ fuel ih =>
    rw [visitFrom]
    split
    · simp only [List.not_mem_nil, false_iff]
      omega
    · have hle := nextColumn_le col
      rw [List.mem_append, mem_columnPair, ih (pairColumn_next hcol) (by omega)]
      unfold PairColumn at hcol
      unfold nextColumn
      split <;> omega

theorem mem_visitOrder {n : Nat} (hn : PairColumn (n - 1)) (hpos : 2 ≤ n) (r c : Nat) :
    (r, c) ∈ visitOrder n ↔ r < n ∧ c < n ∧ c ≠ 6 := by
  rw [visitOrder, mem_visitFrom hn (by omega)]
  omega

/-- The side of every symbol (R85). -/
theorem pairColumn_of_side (v : Nat) : PairColumn (4 * v + 17 - 1) := by
  unfold PairColumn
  omega

theorem mem_visitOrder_side (v r c : Nat) :
    (r, c) ∈ visitOrder (4 * v + 17) ↔ r < 4 * v + 17 ∧ c < 4 * v + 17 ∧ c ≠ 6 :=
  mem_visitOrder (pairColumn_of_side v) (by omega) r c

theorem length_visitOrder_side (v : Nat) : (visitOrder (4 * v + 17)).length = (4 * v + 17) * (4 * v + 16) := by
  have hcells : (visitOrder (4 * v + 17)).toFinset =
      Finset.range (4 * v + 17) ×ˢ (Finset.range (4 * v + 17)).erase 6 := by
    ext x
    simp only [List.mem_toFinset, Finset.mem_product, Finset.mem_erase, Finset.mem_range]
    rw [mem_visitOrder_side v x.1 x.2]
    tauto
  rw [← List.toFinset_card_of_nodup (visitOrder_nodup _), hcells, Finset.card_product,
    Finset.card_erase_of_mem (Finset.mem_range.2 (by omega)), Finset.card_range]
  rfl

/-- Settles O58: the columns of the walk by induction, its length by counting its cells. -/
theorem walkVisitsEachCellOnce : Obligations.WalkVisitsEachCellOnce :=
  fun v => ⟨visitOrder_nodup _, mem_visitOrder_side v, length_visitOrder_side v⟩

/-! ## The unreserved cells (R109) -/

section
variable {p : Symbol} (hp : Regular p) {r c : Nat} (hr : r < p.n) (hc : c < p.n)
include hp hr hc

/-- A cell that a stage covers is reserved. -/
theorem Regular.tag_ne_none_of_covered {t : Tag} (h : covered (tagRects p t) r c = true) :
    (layoutCell p r c).tag ≠ .none := by
  have ht : t ≠ .none := fun e => by rw [e] at h; cases h
  by_cases ha : covered (tagRects p .alignment) r c = true
  · rw [hp.tag_of_covered hr hc ha nofun]
    decide
  · rwa [hp.tag_of_covered hr hc h fun _ => ha]

omit hc in
/-- Column 6, which the walk leaves out, is finder, separator, timing, separator and finder from top to bottom. -/
theorem Regular.tag_column_six : (layoutCell p r 6).tag ≠ .none := by
  have hver := hp.version
  have hside := hp.side
  have hc : 6 < p.n := by omega
  have hstage : covered (tagRects p .finder) r 6 = true ∨ covered (tagRects p .separator) r 6 = true ∨
      covered (tagRects p .timing) r 6 = true := by
    simp only [tagRects, covered_cons, covered_nil, Bool.or_eq_true, Rect.covers_iff, Bool.false_eq_true, or_false]
    omega
  obtain h | h | h := hstage <;> exact hp.tag_ne_none_of_covered hr hc h

end

theorem Regular.mem_placementCells_iff {p : Symbol} (hp : Regular p) (i : Nat) :
    i ∈ placementCells p.n (fun i => (layoutCell p (i / p.n) (i % p.n)).tag) ↔
      i < p.n * p.n ∧ (layoutCell p (i / p.n) (i % p.n)).tag = .none := by
  refine ⟨fun h => ⟨lt_of_mem_placementCells h, tag_of_mem_placementCells h⟩, fun ⟨hi, htag⟩ => ?_⟩
  have hr : i / p.n < p.n := Nat.div_lt_of_lt_mul hi
  have hc : i % p.n < p.n := Nat.mod_lt _ (Nat.zero_lt_of_lt hr)
  have hsix : i % p.n ≠ 6 := fun e => hp.tag_column_six hr (e ▸ htag)
  have hmem : (i / p.n, i % p.n) ∈ visitOrder p.n := by
    rw [hp.side] at hr hc hsix ⊢
    exact (mem_visitOrder_side p.ver _ _).2 ⟨hr, hc, hsix⟩
  exact List.mem_filter.2 ⟨List.mem_map.2 ⟨_, hmem, Nat.div_add_mod' i p.n⟩, decide_eq_true htag⟩

theorem Regular.length_placementCells {p : Symbol} (hp : Regular p) :
    (placementCells p.n fun i => (layoutCell p (i / p.n) (i % p.n)).tag).length = tagCount p .none := by
  have hperm : (placementCells p.n fun i => (layoutCell p (i / p.n) (i % p.n)).tag).Perm
      ((List.range (p.n * p.n)).filter fun i => decide ((layoutCell p (i / p.n) (i % p.n)).tag = .none)) :=
    (List.perm_ext_iff_of_nodup (placementCells_nodup _ _) (List.nodup_range.filter _)).2 fun i => by
      rw [hp.mem_placementCells_iff, List.mem_filter, List.mem_range, decide_eq_true_iff]
  rw [hperm.length_eq, tagCount, layoutMarks, List.filter_map, List.length_map]
  rfl

/-- R71: the remainders of the column `REM`. -/
theorem rem_of_symbolOf {ver : BitVec 6} {ecl : BitVec 2} {p : Symbol} (h : symbolOf ver ecl = some p) :
    p.rem ∈ [0, 3, 4, 7] := by
  have hcolumn : ∀ x ∈ codewordColumns, x.2 ∈ [0, 3, 4, 7] := by decide
  obtain ⟨-, hrow⟩ := symbolOf_meets_table h
  exact hcolumn _ (List.mem_of_getElem? hrow)

/-- Settles O59: the walk leaves out column 6 only, whose cells are all reserved, so it places every unreserved cell. -/
theorem placementCoversUnreservedCells : Obligations.PlacementCoversUnreservedCells := by
  intro ver ecl p h
  have hp := regular_of_symbolOf h
  obtain ⟨hcount, -⟩ := cellsOfEachTag ver ecl p h
  exact ⟨placementCells_nodup _ _, hp.length_placementCells.trans hcount, rem_of_symbolOf h, hp.mem_placementCells_iff⟩

end Sys2Proof.Proofs
end

section
/-! SUPPORT. The one-cell filler of R107 goes through the cells of the walk one by one: at each cursor the cells still to come are
a list whose head the step fills, so it stops when the list is used up (O60). -/

namespace Sys2Proof.Proofs

open Sys2Proof.Machine Sys2Proof.Safety

/-! ## The cells still to come at a cursor (R107) -/

/-- The rows of a column pair after the row of the cursor. -/
def rowsAfter (n row : Nat) (up : Bool) : List Nat :=
  if up then (List.range row).reverse else List.range' (row + 1) (n - 1 - row)

/-- The two cells of a row of a column pair, right-hand one first. -/
def rowCells (col r : Nat) : List (Nat × Nat) := [(r, col), (r, col - 1)]

/-- The cells that the walk still visits from the cursor of a filler on, its own first. -/
def cellsAhead (n : Nat) (f : Filler) : List (Nat × Nat) :=
  if f.col < 1 then []
  else (rowCells f.col f.row).drop f.half ++ (rowsAfter n f.row f.up).flatMap (rowCells f.col)
    ++ visitFrom n f.col (nextColumn f.col) (!f.up)

/-- A cursor of R107: its row is in the grid, and `half` is 0 or 1. -/
structure Cursor (n : Nat) (f : Filler) : Prop where
  row : f.row < n
  half : f.half ≤ 1

theorem columnPair_eq (n col : Nat) (up : Bool) :
    columnPair n col up = (if up then (List.range n).reverse else List.range n).flatMap (rowCells col) := rfl

/-- The walk does not depend on fuel that it does not use. -/
theorem visitFrom_fuel {n fuel fuel' col : Nat} {up : Bool} (h : col ≤ fuel) (h' : col ≤ fuel') :
    visitFrom n fuel col up = visitFrom n fuel' col up := by
  induction fuel generalizing fuel' col up with
  | zero =>
    obtain rfl : col = 0 := by omega
    cases fuel' <;> simp [visitFrom]
  | succ fuel ih =>
    have hnext := nextColumn_le col
    cases fuel' with
    | zero =>
      obtain rfl : col = 0 := by omega
      simp [visitFrom]
    | succ fuel' =>
      rw [visitFrom, visitFrom]
      split
      · rfl
      · rw [ih (fuel' := fuel') (by omega) (by omega)]

/-- The row where a column pair starts. -/
def startRow (n : Nat) (up : Bool) : Nat := if up then n - 1 else 0

theorem rows_eq_cons {n : Nat} (hn : 0 < n) (up : Bool) :
    (if up then (List.range n).reverse else List.range n) = startRow n up :: rowsAfter n (startRow n up) up := by
  obtain ⟨n, rfl⟩ := Nat.exists_eq_succ_of_ne_zero hn.ne'
  cases up with
  | true => simp [startRow, rowsAfter, List.range_succ]
  | false => simp [startRow, rowsAfter, List.range_eq_range', List.range'_succ]

/-- At the start of a column pair the cells ahead are the rest of the walk. -/
theorem cellsAhead_start {n fuel : Nat} (hn : 0 < n) {col : Nat} (hfuel : col ≤ fuel) (up : Bool) (k : Nat)
    (data : Buffer Bool) : cellsAhead n ⟨col, startRow n up, up, 0, k, data⟩ = visitFrom n fuel col up := by
  unfold cellsAhead
  dsimp only
  split
  next hcol =>
    cases fuel with
    | zero => rfl
    | succ fuel => rw [visitFrom, if_pos hcol]
  next hcol =>
    obtain ⟨fuel, rfl⟩ : ∃ m, fuel = m + 1 := ⟨fuel - 1, by omega⟩
    have hnext := nextColumn_le col
    rw [visitFrom, if_neg hcol, columnPair_eq, rows_eq_cons hn, List.flatMap_cons, List.drop_zero,
      visitFrom_fuel (fuel := col) (fuel' := fuel) (by omega) (by omega)]

theorem rowsAfter_up {n row : Nat} (h : 0 < row) : rowsAfter n row true = (row - 1) :: rowsAfter n (row - 1) true := by
  obtain ⟨m, rfl⟩ := Nat.exists_eq_succ_of_ne_zero h.ne'
  simp [rowsAfter, List.range_succ]

theorem rowsAfter_down {n row : Nat} (h : row < n - 1) :
    rowsAfter n row false = (row + 1) :: rowsAfter n (row + 1) false := by
  obtain ⟨m, hm⟩ : ∃ m, n - 1 - row = m + 1 := ⟨n - 1 - row - 1, by omega⟩
  have hm' : n - 1 - (row + 1) = m := by omega
  simp [rowsAfter, hm, hm', List.range'_succ]

/-- The last row of a column pair is the row where the next one starts. -/
theorem rowsAfter_last {n row : Nat} {up : Bool} (hrow : row < n) (hup : ¬ (up = true ∧ 0 < row))
    (hdown : ¬ (up = false ∧ row < n - 1)) : rowsAfter n row up = [] ∧ row = startRow n (!up) := by
  cases up with
  | true =>
    obtain rfl : row = 0 := by simpa using hup
    exact ⟨rfl, rfl⟩
  | false =>
    obtain rfl : row = n - 1 := by simp at hdown; omega
    simp [rowsAfter, startRow]

/-! ## One step (R107) -/

section
variable (n : Nat) (tagAt : Nat → Tag) (bit : Nat → Bool) (f : Filler)

/-- The index of the cell at the cursor. -/
def cellAt : Nat := cellIndex n f.row (f.col - f.half)

/-- The count of bits after the cell at the cursor. -/
def countAfter : Nat := if decide (tagAt (cellAt n f) = .none) then f.k + 1 else f.k

/-- `DATA` after the cell at the cursor. -/
def dataAfter : Buffer Bool := if decide (tagAt (cellAt n f) = .none) then bufSet f.data (cellAt n f) (bit f.k) else f.data

end

section
variable {n : Nat} (tagAt : Nat → Tag) (bit : Nat → Bool) {f : Filler} (hcol : 1 ≤ f.col)
include hcol

theorem fillerStep_of_right (h : f.half = 0) : fillerStep n tagAt bit f =
    ⟨f.col, f.row, f.up, 1, countAfter n tagAt f, dataAfter n tagAt bit f⟩ := by
  rw [fillerStep, if_neg (by omega)]
  exact if_pos h

theorem fillerStep_of_up (h : ¬ f.half = 0) (hup : f.up = true ∧ 0 < f.row) : fillerStep n tagAt bit f =
    ⟨f.col, f.row - 1, f.up, 0, countAfter n tagAt f, dataAfter n tagAt bit f⟩ := by
  rw [fillerStep, if_neg (by omega)]
  exact (if_neg h).trans (if_pos hup)

theorem fillerStep_of_down (h : ¬ f.half = 0) (hup : ¬ (f.up = true ∧ 0 < f.row))
    (hdown : f.up = false ∧ f.row < n - 1) : fillerStep n tagAt bit f =
    ⟨f.col, f.row + 1, f.up, 0, countAfter n tagAt f, dataAfter n tagAt bit f⟩ := by
  rw [fillerStep, if_neg (by omega)]
  exact (if_neg h).trans ((if_neg hup).trans (if_pos hdown))

theorem fillerStep_of_turn (h : ¬ f.half = 0) (hup : ¬ (f.up = true ∧ 0 < f.row))
    (hdown : ¬ (f.up = false ∧ f.row < n - 1)) : fillerStep n tagAt bit f =
    ⟨nextColumn f.col, f.row, !f.up, 0, countAfter n tagAt f, dataAfter n tagAt bit f⟩ := by
  rw [fillerStep, if_neg (by omega)]
  exact (if_neg h).trans ((if_neg hup).trans (if_neg hdown))

end

/-- What one step does: the cursor leaves the first of the cells ahead, which it fills if it is unreserved. -/
structure Advances (n : Nat) (tagAt : Nat → Tag) (bit : Nat → Bool) (f g : Filler) : Prop where
  ahead : cellsAhead n f = (f.row, f.col - f.half) :: cellsAhead n g
  cursor : Cursor n g
  count : g.k = countAfter n tagAt f
  data : g.data = dataAfter n tagAt bit f

theorem cellsAhead_of_right {n : Nat} {f : Filler} (hcol : 1 ≤ f.col) (h : f.half = 0) :
    cellsAhead n f = (f.row, f.col - f.half) :: (f.row, f.col - 1) ::
      ((rowsAfter n f.row f.up).flatMap (rowCells f.col) ++ visitFrom n f.col (nextColumn f.col) (!f.up)) := by
  rw [cellsAhead, if_neg (by omega), h]
  rfl

theorem cellsAhead_of_left {n : Nat} {f : Filler} (hcol : 1 ≤ f.col) (h : f.half = 1) :
    cellsAhead n f = (f.row, f.col - f.half) ::
      ((rowsAfter n f.row f.up).flatMap (rowCells f.col) ++ visitFrom n f.col (nextColumn f.col) (!f.up)) := by
  rw [cellsAhead, if_neg (by omega), h]
  rfl

theorem fillerStep_advances {n : Nat} (tagAt : Nat → Tag) (bit : Nat → Bool) {f : Filler} (hf : Cursor n f)
    (hcol : 1 ≤ f.col) : Advances n tagAt bit f (fillerStep n tagAt bit f) := by
  obtain ⟨hrow, hhalf⟩ := hf
  by_cases h : f.half = 0
  · rw [fillerStep_of_right tagAt bit hcol h]
    refine ⟨(cellsAhead_of_right hcol h).trans (congrArg (List.cons _) ?_), ⟨hrow, le_rfl⟩, rfl, rfl⟩
    exact (cellsAhead_of_left (f := ⟨f.col, f.row, f.up, 1, _, _⟩) hcol rfl).symm
  have hleft := cellsAhead_of_left (n := n) hcol (by omega : f.half = 1)
  by_cases hup : f.up = true ∧ 0 < f.row
  · rw [fillerStep_of_up tagAt bit hcol h hup]
    refine ⟨hleft.trans (congrArg (List.cons _) ?_), ⟨by dsimp only; omega, Nat.zero_le 1⟩, rfl, rfl⟩
    rw [hup.1, rowsAfter_up hup.2]
    exact (cellsAhead_of_right (f := ⟨f.col, f.row - 1, true, 0, _, _⟩) hcol rfl).symm
  by_cases hdown : f.up = false ∧ f.row < n - 1
  · rw [fillerStep_of_down tagAt bit hcol h hup hdown]
    refine ⟨hleft.trans (congrArg (List.cons _) ?_), ⟨by dsimp only; omega, Nat.zero_le 1⟩, rfl, rfl⟩
    rw [hdown.1, rowsAfter_down hdown.2]
    exact (cellsAhead_of_right (f := ⟨f.col, f.row + 1, false, 0, _, _⟩) hcol rfl).symm
  · rw [fillerStep_of_turn tagAt bit hcol h hup hdown]
    obtain ⟨hlast, hstart⟩ := rowsAfter_last hrow hup hdown
    have hnext := nextColumn_le f.col
    refine ⟨hleft.trans (congrArg (List.cons _) ?_), ⟨hrow, Nat.zero_le 1⟩, rfl, rfl⟩
    rw [hlast, hstart, cellsAhead_start (fuel := f.col) (by omega) (by omega)]
    rfl

/-! ## The whole run -/

theorem cellsAhead_eq_nil_iff {n : Nat} {f : Filler} (hf : Cursor n f) : cellsAhead n f = [] ↔ f.col < 1 := by
  obtain ⟨-, hhalf⟩ := hf
  refine ⟨fun h => ?_, fun h => if_pos h⟩
  by_contra hcol
  obtain h0 | h1 : f.half = 0 ∨ f.half = 1 := by omega
  · rw [cellsAhead_of_right (by omega) h0] at h
    cases h
  · rw [cellsAhead_of_left (by omega) h1] at h
    cases h

/-- The unreserved cells of a part of the walk, as indices (R108). -/
def freeCells (n : Nat) (tagAt : Nat → Tag) (cells : List (Nat × Nat)) : List Nat :=
  (cells.map fun rc => cellIndex n rc.1 rc.2).filter fun i => decide (tagAt i = .none)

/-- The cell at the cursor is among the unreserved cells ahead if its tag is `None`. -/
theorem freeCells_cons_cursor (n : Nat) (tagAt : Nat → Tag) (f : Filler) (cells : List (Nat × Nat)) :
    freeCells n tagAt ((f.row, f.col - f.half) :: cells) =
      if decide (tagAt (cellAt n f) = .none) then cellAt n f :: freeCells n tagAt cells else freeCells n tagAt cells := by
  rw [freeCells, List.map_cons, List.filter_cons]
  rfl

/-- As many steps as there are cells ahead use them up: they place the next bits on the unreserved ones, and stop then and
not before. -/
theorem fillerRun_cellsAhead {n : Nat} (tagAt : Nat → Tag) (bit : Nat → Bool) {cells : List (Nat × Nat)} {f : Filler}
    (hf : Cursor n f) (hcells : cellsAhead n f = cells) :
    let g := fillerRun n tagAt bit cells.length f
    g.data = placeBits bit (freeCells n tagAt cells) f.k f.data ∧ g.k = f.k + (freeCells n tagAt cells).length ∧
      g.col < 1 ∧ ∀ m, m < cells.length → 1 ≤ (fillerRun n tagAt bit m f).col := by
  induction cells generalizing f with
  | nil => exact ⟨rfl, rfl, (cellsAhead_eq_nil_iff hf).1 hcells, nofun⟩
  | cons x cells ih =>
    have hcol : 1 ≤ f.col := by
      by_contra hlt
      rw [(cellsAhead_eq_nil_iff hf).2 (by omega)] at hcells
      cases hcells
    obtain ⟨hahead, hcursor, hcount, hdata⟩ := fillerStep_advances tagAt bit hf hcol
    obtain ⟨rfl, hrest⟩ := List.cons.inj (hcells.symm.trans hahead)
    obtain ⟨hd, hk, hend, hbefore⟩ := ih hcursor hrest.symm
    refine ⟨hd.trans ?_, hk.trans ?_, hend, fun m hm => ?_⟩
    · rw [hcount, hdata, freeCells_cons_cursor, countAfter, dataAfter]
      split <;> rfl
    · rw [hcount, freeCells_cons_cursor, countAfter]
      split
      · rw [List.length_cons]
        omega
      · rfl
    · cases m with
      | zero => exact hcol
      | succ m => exact hbefore m (Nat.lt_of_succ_lt_succ hm)

/-- Settles O60: at the start all of the walk is ahead. -/
theorem fillerMachineAgrees : Obligations.FillerMachineAgrees := by
  intro v tagAt bit data
  have hahead : cellsAhead (4 * v + 17) (fillerInit (4 * v + 17) data) = visitOrder (4 * v + 17) :=
    cellsAhead_start (by omega) (by omega) true 0 data
  have hcursor : Cursor (4 * v + 17) (fillerInit (4 * v + 17) data) := ⟨by simp [fillerInit], Nat.zero_le 1⟩
  obtain ⟨hdata, hcount, hend, hbefore⟩ := fillerRun_cellsAhead tagAt bit hcursor hahead
  rw [length_visitOrder_side] at hdata hcount hend hbefore
  exact ⟨hdata, hcount.trans (Nat.zero_add _), hend, hbefore⟩

end Sys2Proof.Proofs
end

section
/-! SUPPORT. The system commands (R115 to R119): the word of each, what it refuses, and what it answers and leaves
(O1 to O5). -/

namespace Sys2Proof.Proofs

open Sys2Proof.Machine Sys2Proof.Safety

/-! ## Values of 24 bits (R42) -/

/-- D3: a number that fits is its own response value. -/
theorem val24_toNat {n : Nat} (h : n < 2 ^ 24) : (val24 n).toNat = n := by
  rw [val24, BitVec.toNat_ofNat, Nat.mod_eq_of_lt h]

/-- Two fields side by side: the number of the left one times the place value of the right one, and the right one. -/
theorem toNat_append_fields {m n : Nat} (x : BitVec m) (y : BitVec n) : (x ++ y).toNat = x.toNat * 2 ^ n + y.toNat := by
  rw [BitVec.toNat_append, ← Nat.shiftLeft_add_eq_or_of_lt y.isLt, Nat.shiftLeft_eq]

/-! ## `NOP` and `CLR` (R115, R116) -/

/-- Settles O1: `NOP` has no test and no effect. -/
theorem nopAnswersZero : Obligations.NopAnswersZero :=
  ⟨encodedAs_F0 (by simp [decodeRows]), fun _ => reads_of_exec rfl⟩

/-- R15: a command other than `CLR` keeps an error that is recorded, whether it fails or not. -/
theorem exec_keeps_recorded_error {i : Instr} {s t : State} (ht : exec i s = .next t) (hs : s.ferr ≠ 0#8)
    (hi : i ≠ .clr) : t.ferr = s.ferr := by
  obtain ⟨code, -, rfl⟩ | ⟨v, w, heff, rfl⟩ := exec_next ht
  · rw [failState_ferr, if_neg hs]
  · rw [withResp_ferr, effect_keeps_ferr heff hi]

/-- R120: the count after `PUSHD`. -/
theorem pushState_dclen_toNat {s : State} (hd : s.dclen.toNat < dcCap) (b : BitVec 8) :
    (pushState b s).dclen.toNat = s.dclen.toNat + 1 := by
  have hlt : s.dclen.toNat < 2956 := hd
  rw [pushState_dclen]
  bv_omega

theorem effect_dclen_le {params : Params} {i : Instr} {s w : State} (heff : Effect params i s w) (hclr : i ≠ .clr)
    (hcfg : ∀ v l, i ≠ .cfg v l) : s.dclen.toNat ≤ w.dclen.toNat := by
  cases heff with
  | clr => exact absurd rfl hclr
  | cfg ver ecl => exact absurd rfl (hcfg ver ecl)
  | pushd b _ hd => rw [pushState_dclen_toNat hd]; exact Nat.le_succ _
  | _ => exact Nat.le_refl _

/-- R116: no command but `CLR` and `CFG` lowers `DCLEN`. -/
theorem exec_dclen_le {i : Instr} {s t : State} (ht : exec i s = .next t) (hclr : i ≠ .clr)
    (hcfg : ∀ v l, i ≠ .cfg v l) : s.dclen.toNat ≤ t.dclen.toNat := by
  obtain ⟨code, -, rfl⟩ | ⟨v, w, heff, rfl⟩ := exec_next ht
  · exact Nat.le_refl _
  · rw [withResp_dclen]
    exact effect_dclen_le heff hclr hcfg

/-- Settles O2: `CLR` leaves `clearState`, a failure keeps `FERR` and `DCLEN` once they are set, and so does every other
effect but that of `CFG` on `DCLEN`. -/
theorem clrRestoresResetState : Obligations.ClrRestoresResetState := by
  refine ⟨encodedAs_F0 (by simp [decodeRows]), fun s => ?_, fun i s t ht hs ht0 => ?_, fun i s t ht hlt => ?_⟩
  · exact ⟨_, completesIn_of_exec (w := clearState s) rfl, resetValues_withResp (resetValues_clearState s) _, rfl⟩
  · by_contra hi
    exact hs ((exec_keeps_recorded_error ht hs hi).symm.trans ht0)
  · by_contra! hi
    obtain ⟨hclr, hcfg⟩ := hi
    exact Nat.not_lt.2 (exec_dclen_le ht hclr hcfg) hlt

/-! ## `CFG` (R117) -/

theorem exec_cfg_of_bad_version {ver : BitVec 6} (hver : ¬ (1 ≤ ver.toNat ∧ ver.toNat ≤ vMax)) (ecl : BitVec 2)
    (s : State) : exec (.cfg ver ecl) s = .next (failState .badCfg s) :=
  require_neg _ hver _ _ _

/-- Settles O3: past its test, `CFG` leaves `configure` and answers the `D` of the symbol, which a legal version has. -/
theorem cfgStartsSymbol : Obligations.CfgStartsSymbol := by
  refine ⟨encodedAs_FC (by simp [decodeRows]), fun ver ecl s hver => ?_, fun ver ecl s h1 h40 => ?_⟩
  · have hbad : ¬ (1 ≤ ver.toNat ∧ ver.toNat ≤ vMax) := by unfold vMax; omega
    exact failsWith_of_exec (exec_cfg_of_bad_version hbad ecl s)
  · obtain ⟨p, hp⟩ := exists_symbolOf ver ecl h1 h40
    obtain ⟨-, -, -, -, -, -, -, -, -, -, -, -, hd, -⟩ := symbolOf_sound ver ecl p hp
    exact ⟨p, val24 (dataCount p), hp, val24_toNat (show p.t - p.b * p.e < 2 ^ 24 by omega),
      exec_cfg_of_tests ⟨h1, h40⟩ hp⟩

/-! ## `RDSTAT` (R16, R118) -/

theorem statVal_toNat (s : State) :
    (statVal s).toNat = s.ferr.toNat * 256 + s.plv.toNat * 32 + s.layv.toNat * 16 + s.cwv.toNat * 8 + s.ecv.toNat * 4
      + s.rawv.toNat * 2 + s.cfgv.toNat := by
  simp only [statVal, toNat_append_fields, BitVec.toNat_ofBool, BitVec.toNat_ofNat]
  omega

/-- Settles O4: the fields of `STAT` at their places. -/
theorem rdstatReportsStatus : Obligations.RdstatReportsStatus :=
  ⟨encodedAs_F0 (by simp [decodeRows]), fun s => ⟨statVal s, reads_of_exec rfl, statVal_toNat s⟩⟩

/-! ## `RDPAR` (R17, R119) -/

section
variable {s : State} {k : BitVec 8}

theorem exec_rdpar_of_range (hk : ¬ k.toNat ≤ 15) : exec (.rdpar k) s = .next (failState .range s) :=
  require_neg _ hk _ _ _

theorem exec_rdpar_of_unconfigured (hk : k.toNat ≤ 9) (hc : ¬ s.cfgv = true) :
    exec (.rdpar k) s = .next (failState .noCfg s) := by
  have hsel : selectorOf k ≤ 15 := hk.trans (by decide)
  have htest : ¬ (10 ≤ selectorOf k ∨ s.cfgv = true) := not_or.2 ⟨Nat.not_le.2 (Nat.lt_succ_of_le hk), hc⟩
  exact (require_pos _ hsel _ _ _).trans (require_neg _ htest _ _ _)

theorem exec_rdpar_of_symbol {p : Symbol} (hk : k.toNat ≤ 9) (hc : s.cfgv = true) (hp : symbolOf s.ver s.ecl = some p) :
    exec (.rdpar k) s = respond (val24 (symbolParam p k.toNat)) s := by
  have hsel : selectorOf k ≤ 15 := hk.trans (by decide)
  exact (require_pos _ hsel _ _ _).trans
    ((require_pos _ (.inr hc) _ _ _).trans ((if_pos hk).trans (withSymbol_some _ _ _ p hp _)))

theorem exec_rdpar_of_state (hk10 : 10 ≤ k.toNat) (hk15 : k.toNat ≤ 15) :
    exec (.rdpar k) s = respond (val24 (stateParam s k.toNat)) s :=
  (require_pos _ hk15 _ _ _).trans
    ((require_pos _ (.inl hk10) _ _ _).trans (if_neg (Nat.not_le.2 hk10)))

end

/-- R17: the model's column of selectors is that of the rule. -/
theorem symbolParam_eq_parOfSymbol {ver : BitVec 6} {p : Symbol} (hp : symbolSound ver p) (k : Nat) :
    symbolParam p k = parOfSymbol ver.toNat p k := by
  obtain ⟨hver, -, -, hside, -⟩ := hp
  rw [hver] at hside
  match k with
  | 0 => exact hside
  | 1 | 2 | 3 | 4 | 5 | 6 | 7 => rfl
  | 8 => exact Nat.add_sub_cancel_left _ _
  | k + 9 => exact congrArg₂ (· * ·) hside hside

/-- D3: every parameter fits a response value; the largest is the number of cells. -/
theorem parOfSymbol_le {ver : BitVec 6} {p : Symbol} (hp : symbolSound ver p) (k : Nat) :
    parOfSymbol ver.toNat p k ≤ gridCap := by
  obtain ⟨hver, -, h40, hside, -, hb, -, he, -, -, -, ht, -, hrem⟩ := hp
  have hmod : p.t % p.b ≤ p.t := Nat.mod_le _ _
  have hdiv : p.t / p.b ≤ p.t := Nat.div_le_self _ _
  have hside : 4 * ver.toNat + 17 ≤ 177 := by omega
  unfold gridCap
  match k with
  | 0 | 1 | 2 | 3 | 4 | 5 | 6 | 7 | 8 => simp only [parOfSymbol]; omega
  | k + 9 => exact Nat.mul_le_mul hside hside

/-- Settles O5: the selectors of the symbol by the table of R17, those of the state one by one. -/
theorem rdparReportsParameter : Obligations.RdparReportsParameter := by
  refine ⟨encodedAs_FB (by simp [decodeRows]), fun k s hk => ?_, fun k s hk hc => ?_, fun k s hk hc hver => ?_,
    fun s => ⟨?_, ?_, ?_, ?_, ?_, ?_⟩⟩
  · exact failsWith_of_exec (exec_rdpar_of_range (by omega))
  · exact failsWith_of_exec (exec_rdpar_of_unconfigured hk (Bool.eq_false_iff.1 hc))
  · obtain ⟨p, hp⟩ := exists_symbolOf s.ver s.ecl hver.1 hver.2
    have hsound := symbolOf_sound s.ver s.ecl p hp
    have hpar := symbolParam_eq_parOfSymbol hsound k.toNat
    refine ⟨p, _, hp, reads_of_exec (exec_rdpar_of_symbol hk hc hp), ?_⟩
    rw [hpar, val24_toNat ((parOfSymbol_le hsound _).trans_lt (by decide))]
  all_goals exact reads_of_exec (exec_rdpar_of_state (by decide) (by decide))

end Sys2Proof.Proofs
end

section
/-! SUPPORT. The data ports (R120 to R125): the word of each, its tests in the order of the rule, and what it answers
(O16 to O21). -/

namespace Sys2Proof.Proofs

open Sys2Proof.Machine Sys2Proof.Safety

/-! ## `PUSHD` (R120) -/

theorem exec_pushd_of_full {b : BitVec 8} {s : State} (hd : ¬ s.dclen.toNat < dcCap) :
    exec (.pushd b) s = .next (failState .full s) :=
  require_neg _ hd _ _ _

theorem exec_pushd_of_room {b : BitVec 8} {s : State} (hd : s.dclen.toNat < dcCap) :
    exec (.pushd b) s = respond (val24 (s.dclen.toNat + 1)) (pushState b s) :=
  require_pos _ hd _ _ _

/-- Settles O16: past its test, `PUSHD` leaves `pushState`, which writes one element. -/
theorem pushdAppendsCodeword : Obligations.PushdAppendsCodeword := by
  refine ⟨encodedAs_FB (by simp [decodeRows]), fun b s hd => ?_, fun b s hd => ?_⟩
  · exact failsWith_of_exec (exec_pushd_of_full (Nat.not_lt.2 hd))
  · have hget (i : Nat) : bufGet (pushState b s).dc i = if i = s.dclen.toNat then some b else bufGet s.dc i :=
      bufGet_bufSet s.dc s.dclen.toNat i b
    exact ⟨_, completesIn_of_exec (exec_pushd_of_room hd), pushState_dclen_toNat hd b, (hget _).trans (if_pos rfl),
      fun i hi => (hget i).trans (if_neg hi), rfl⟩

/-! ## The reads of one byte, test by test (R121 to R124) -/

section
variable {s : State} {i : BitVec 16}

theorem exec_rddc_of_tests (hi : i.toNat < s.dclen.toNat) (hcap : i.toNat < capacity .dc) :
    exec (.rddc i) s = respond (zextByte (readByte .dc s.dc i.toNat)) s :=
  (require_pos _ hi _ _ _).trans (withElement_pos _ _ hcap _)

theorem exec_rdec_of_range (h : s.rawv = true ∨ s.ecv = true) (hi : ¬ i.toNat < s.eclen.toNat) :
    exec (.rdec i) s = .next (failState .range s) :=
  (require_pos _ h _ _ _).trans (require_neg _ hi _ _ _)

theorem exec_rdec_of_tests (h : s.rawv = true ∨ s.ecv = true) (hi : i.toNat < s.eclen.toNat)
    (hcap : i.toNat < capacity .ec) : exec (.rdec i) s = respond (zextByte (readByte .ec s.ec i.toNat)) s :=
  (require_pos _ h _ _ _).trans ((require_pos _ hi _ _ _).trans (withElement_pos _ _ hcap _))

theorem exec_rdcw_of_range {p : Symbol} (h : s.cwv = true) (hp : symbolOf s.ver s.ecl = some p) (hi : ¬ i.toNat < p.t) :
    exec (.rdcw i) s = .next (failState .range s) :=
  (require_pos _ h _ _ _).trans ((withSymbol_some _ _ _ p hp _).trans (require_neg _ hi _ _ _))

theorem exec_rdcw_of_tests {p : Symbol} (h : s.cwv = true) (hp : symbolOf s.ver s.ecl = some p) (hi : i.toNat < p.t) :
    exec (.rdcw i) s = respond (zextByte (readByte .cw s.cw i.toNat)) s :=
  (require_pos _ h _ _ _).trans ((withSymbol_some _ _ _ p hp _).trans (require_pos _ hi _ _ _))

theorem exec_rdgen_of_range (h : 1 ≤ s.gendeg.toNat) (hi : ¬ i.toNat ≤ s.gendeg.toNat) :
    exec (.rdgen i) s = .next (failState .range s) :=
  (require_pos _ h _ _ _).trans (require_neg _ hi _ _ _)

theorem exec_rdgen_of_tests (h : 1 ≤ s.gendeg.toNat) (hi : i.toNat ≤ s.gendeg.toNat) (hcap : i.toNat < capacity .gen) :
    exec (.rdgen i) s = respond (zextByte (readByte .gen s.gen i.toNat)) s :=
  (require_pos _ h _ _ _).trans ((require_pos _ hi _ _ _).trans (withElement_pos _ _ hcap _))

end

/-- Settles O17: a count within the capacity admits only elements that exist. -/
theorem rddcAnswersElement : Obligations.RddcAnswersElement := by
  refine ⟨encodedAs_FI (by simp [decodeRows]), fun i s hi => ?_, fun i s hi hd => ?_⟩
  · exact failsWith_of_exec (exec_rddc_of_range (Nat.not_lt.2 hi))
  · exact reads_of_exec (exec_rddc_of_tests hi (hi.trans_le hd))

/-- Settles O18: the flags, then the index. -/
theorem rdecAnswersElement : Obligations.RdecAnswersElement := by
  refine ⟨encodedAs_FI (by simp [decodeRows]), fun i s hraw hec => ?_, fun i s h hi => ?_, fun i s h hi he => ?_⟩
  · exact failsWith_of_exec (exec_rdec_of_not_ready (by simp [hraw, hec]) i)
  · exact failsWith_of_exec (exec_rdec_of_range h (Nat.not_lt.2 hi))
  · exact reads_of_exec (exec_rdec_of_tests h hi (hi.trans_le he))

/-- Settles O19: the flag, then the index against `T`. -/
theorem rdcwAnswersElement : Obligations.RdcwAnswersElement := by
  refine ⟨encodedAs_FI (by simp [decodeRows]), fun i s hcw => ?_, fun i s p hcw hp hi => ?_, fun i s p hcw hp hi => ?_⟩
  · exact failsWith_of_exec (exec_rdcw_of_not_ready (Bool.eq_false_iff.1 hcw) i)
  · exact failsWith_of_exec (exec_rdcw_of_range hcw hp (Nat.not_lt.2 hi))
  · exact reads_of_exec (exec_rdcw_of_tests hcw hp hi)

theorem rdgen_reads {i : BitVec 16} {s : State} (h : 1 ≤ s.gendeg.toNat) (hi : i.toNat ≤ s.gendeg.toNat)
    (hdeg : s.gendeg.toNat ≤ 30) : Reads (.rdgen i) s ((readByte .gen s.gen i.toNat).setWidth 24) :=
  reads_of_exec (exec_rdgen_of_tests h hi (Nat.lt_succ_of_le (hi.trans hdeg)))

/-- Settles O20: the degree, then the index; coefficient 0 is the leading 1 of R27 item 7. -/
theorem rdgenAnswersCoefficient : Obligations.RdgenAnswersCoefficient := by
  refine ⟨encodedAs_FI (by simp [decodeRows]), fun i s h => ?_, fun i s h hi => ?_, fun i s => rdgen_reads,
    fun s hinv h => ?_⟩
  · exact failsWith_of_exec (exec_rdgen_of_not_ready (by omega) i)
  · exact failsWith_of_exec (exec_rdgen_of_range h (Nat.not_le.2 hi))
  · have hlead : readByte .gen s.gen (0#16).toNat = 1#8 := by simp [readByte, hinv.genLead h]
    have hread : Reads (.rdgen 0#16) s _ := rdgen_reads h (Nat.zero_le _) hinv.genBound
    rwa [hlead] at hread

/-! ## `RDMOD` (R86, R97, R125) -/

theorem cellVal_toNat (tag : Tag) (dark colour : Bool) :
    (cellVal tag dark colour).toNat = (tagCode tag).toNat * 4 + dark.toNat * 2 + colour.toNat := by
  simp only [cellVal, toNat_append_fields, BitVec.toNat_ofBool, BitVec.toNat_ofNat]
  omega

/-- R97: where colour and dark flag agree, the two low bits are 0 or 3. -/
theorem cellVal_toNat_of_agree (tag : Tag) (dark : Bool) :
    (cellVal tag dark dark).toNat = 4 * (tagCode tag).toNat ∨
      (cellVal tag dark dark).toNat = 4 * (tagCode tag).toNat + 3 := by
  rw [cellVal_toNat, Nat.mul_comm]
  cases dark
  · exact .inl rfl
  · exact .inr rfl

/-- R86: a cell without tag and dark flag shows its colour alone. -/
theorem cellVal_toNat_of_none (colour : Bool) :
    (cellVal .none false colour).toNat = 0 ∨ (cellVal .none false colour).toNat = 1 := by
  cases colour
  · exact .inl rfl
  · exact .inr rfl

/-- R100: a cell that ends with the tag `None` was written by no stage. -/
theorem Regular.layoutCell_of_tag_none {p : Symbol} (hp : Regular p) {r c : Nat}
    (htag : (layoutCell p r c).tag = .none) : layoutCell p r c = unreservedMark := by
  rw [layoutCell_eq_findSome?] at htag ⊢
  cases hm : stageOrder.findSome? (stageCell p r c) with
  | none => rfl
  | some m =>
    obtain ⟨t, ht, hstage⟩ := List.exists_of_findSome?_eq_some hm
    rw [hm, Option.getD_some, hp.tag_of_stageCell hstage] at htag
    subst htag
    exact absurd ht (by decide)

/-- R97, R100, R125: what `RDMOD` can show of a cell where the flags tell the truth. -/
theorem cellVal_of_truthful {s : State} {p : Symbol} (h : FlagsTruthful s) (hl : s.layv = true)
    (hp : symbolOf s.ver s.ecl = some p) {i : Nat} (hi : i < p.n * p.n) {v : Val}
    (hv : v = cellVal (readTag s.rsvtag i) (readBit .rsvdark s.rsvdark i) (readBit .data s.data i)) :
    (v.toNat = 0 ∨ v.toNat = 1) ∨
      ∃ tag : Tag, tag ≠ .none ∧ (v.toNat = 4 * (tagCode tag).toNat ∨ v.toNat = 4 * (tagCode tag).toNat + 3) := by
  have hr : i / p.n < p.n := Nat.div_lt_of_lt_mul hi
  have hc : i % p.n < p.n := Nat.mod_lt _ (Nat.zero_lt_of_lt hr)
  obtain ⟨htag, hdark, hdata⟩ := h.layv hl p hp (i / p.n) (i % p.n) hr hc
  rw [Nat.div_add_mod'] at htag hdark hdata
  by_cases hnone : (layoutCell p (i / p.n) (i % p.n)).tag = .none
  · rw [(regular_of_symbolOf hp).layoutCell_of_tag_none hnone] at htag hdark
    rw [hv, htag, hdark]
    exact .inl (cellVal_toNat_of_none _)
  · rw [hv, htag, hdark, hdata hnone]
    exact .inr ⟨_, hnone, cellVal_toNat_of_agree _ _⟩

/-- Settles O21: the flag, then the index; the value by its fields, and by the marks of the layout where the flags tell the
truth. -/
theorem rdmodAnswersCell : Obligations.RdmodAnswersCell := by
  refine ⟨encodedAs_FI (by simp [decodeRows]), rfl, fun i s hl => ?_, fun i s p hl hp hi => ?_, fun i s p hl hp hi => ?_⟩
  · exact failsWith_of_exec (exec_rdmod_of_no_layout (Bool.eq_false_iff.1 hl) i)
  · exact failsWith_of_exec (exec_rdmod_of_range hl hp (Nat.not_lt.2 hi))
  · exact ⟨_, reads_of_exec (exec_rdmod_of_tests hl hp hi), cellVal_toNat _ _ _,
      fun htruth => cellVal_of_truthful htruth hl hp hi rfl⟩

end Sys2Proof.Proofs
end

section
/-! SUPPORT. The table of R126: what each effect does to the flags and the counters (O31). -/

namespace Sys2Proof.Proofs

open Sys2Proof.Machine Sys2Proof.Safety

/-- R39, R126: the row of a command that only reads keeps every flag and names no counter. -/
theorem flagTable_of_isRead {i : Instr} (hi : isRead i = true) (s : State) :
    (flagTable i).Holds s s ∧ countersAgree i s s := by
  cases i with
  | nop | rdstat | rdpar | gfmul | gfexp | gflog | rddc | rdec | rdcw | rdgen | rdmod =>
    exact ⟨⟨rfl, rfl, rfl, rfl, rfl, rfl⟩, rfl, rfl, rfl⟩
  | _ => cases hi

/-- R126: every effect agrees with the row of its command. -/
theorem flagTable_of_effect {params : Params} {i : Instr} {s w : State} (heff : Effect params i s w) :
    (flagTable i).Holds s w ∧ countersAgree i s w := by
  cases heff with
  | read i _ hi => exact flagTable_of_isRead hi s
  | pushd b _ hd => exact ⟨⟨rfl, rfl, rfl, rfl, rfl, rfl⟩, pushState_dclen_toNat hd b, rfl, rfl⟩
  | clr | cfg | ilv | layout | place => exact ⟨⟨rfl, rfl, rfl, rfl, rfl, rfl⟩, rfl, rfl, rfl⟩
  | genp => exact ⟨⟨rfl, rfl, rfl, rfl, rfl, rfl⟩, rfl, rfl⟩
  | rsraw | rsblks | run => exact ⟨⟨rfl, rfl, rfl, rfl, rfl, rfl⟩, rfl⟩

/-- No counter is the response. -/
theorem countersAgree_withResp {i : Instr} {s w : State} (h : countersAgree i s w) (r : Word) :
    countersAgree i s (withResp r w) := by
  cases i <;> exact h

/-- A command that answers another status than 0 failed. -/
theorem exec_next_error {i : Instr} {s t : State} (ht : exec i s = .next t) (herr : statusOf t ≠ 0#8) :
    ∃ code, t = failState code s := by
  obtain ⟨code, -, hfail⟩ | ⟨v, w, -, rfl⟩ := exec_next ht
  · exact ⟨code, hfail⟩
  · exact absurd (statusOf_withResp .ok v w) herr

/-- Settles O31: a success took its effect, to which the response adds nothing, and a failure keeps all but `FERR`. -/
theorem flagTableHolds : Obligations.FlagTableHolds := by
  refine fun i s t ht => ⟨fun hok => ?_, fun herr => ?_⟩
  · obtain ⟨v, w, heff, rfl⟩ := exec_next_ok ht hok
    obtain ⟨hflags, hcounters⟩ := flagTable_of_effect heff
    exact ⟨hflags, countersAgree_withResp hcounters _⟩
  · obtain ⟨code, rfl⟩ := exec_next_error ht herr
    exact sameButFerr_failState code s

end Sys2Proof.Proofs
end
